-- ==== Sys2Proof/Word.lean ====
section
/-! DEFINITION. The two word types of the machine (R5: 8-bit data, 16-bit addresses). -/

namespace Sys2Proof

/-- An 8-bit value, the spec's `u8` (R7). -/
abbrev Byte := BitVec 8

/-- A 16-bit value, the spec's `u16` (R7): an address, SP, PC, or a register pair. -/
abbrev Word := BitVec 16

end Sys2Proof
end

