-- ==== Sys2Proof/Syntax.lean ====
section
/-! DEFINITION. The instructions: operand names, and one constructor per row of the opcode table
(R123 to R126), in the table's order. `Row` names the rows themselves, operands left out. -/

namespace Sys2Proof

/-- An 8-bit operand (R114); `hlInd` is `[HL]`, the byte at the address held in HL. -/
inductive R8 where
  | b | c | d | e | h | l | hlInd | a
  deriving DecidableEq, Repr

/-- A 16-bit operand of `LD r16,n16`, `ADD HL,r16`, `INC r16`, `DEC r16` (R115). -/
inductive R16 where
  | bc | de | hl | sp
  deriving DecidableEq, Repr

/-- A 16-bit operand of `PUSH` and `POP` (R116). -/
inductive R16Stk where
  | bc | de | hl | af
  deriving DecidableEq, Repr

/-- A 16-bit address operand of `LD [r16mem],A` and `LD A,[r16mem]` (R117). -/
inductive R16Mem where
  | bc | de | hlInc | hlDec
  deriving DecidableEq, Repr

/-- A condition code (R118). -/
inductive Cond where
  | nz | z | nc | c
  deriving DecidableEq, Repr

/-- An instruction. The constructors follow the rows of `opcode_table.json`. `prefixCb` is the
row of the prefix byte 0xCB alone (R295): not an instruction of its own, so `WellFormed` refuses
it; its meaning is the prefix step of R111. -/
inductive Instr where
  | nop
  | ldN16Sp (n : Word)
  | stop (n : Byte)
  | jr (e : Byte)
  | jrCc (cc : Cond) (e : Byte)
  | ldR16N16 (r : R16) (n : Word)
  | addHlR16 (r : R16)
  | ldR16MemA (r : R16Mem)
  | ldAR16Mem (r : R16Mem)
  | incR16 (r : R16)
  | decR16 (r : R16)
  | incR8 (r : R8)
  | decR8 (r : R8)
  | ldR8N8 (r : R8) (n : Byte)
  | rlca
  | rrca
  | rla
  | rra
  | daa
  | cpl
  | scf
  | ccf
  | halt
  | ldR8R8 (dst src : R8)
  | addAR8 (r : R8)
  | adcAR8 (r : R8)
  | subAR8 (r : R8)
  | sbcAR8 (r : R8)
  | andAR8 (r : R8)
  | xorAR8 (r : R8)
  | orAR8 (r : R8)
  | cpAR8 (r : R8)
  | addAN8 (n : Byte)
  | adcAN8 (n : Byte)
  | subAN8 (n : Byte)
  | sbcAN8 (n : Byte)
  | andAN8 (n : Byte)
  | xorAN8 (n : Byte)
  | orAN8 (n : Byte)
  | cpAN8 (n : Byte)
  | retCc (cc : Cond)
  | ret
  | reti
  | jpCcN16 (cc : Cond) (n : Word)
  | jpN16 (n : Word)
  | jpHl
  | callCcN16 (cc : Cond) (n : Word)
  | callN16 (n : Word)
  | rst (tgt : Fin 8)
  | pop (r : R16Stk)
  | push (r : R16Stk)
  | prefixCb
  | ldhN8A (n : Byte)
  | ldhAN8 (n : Byte)
  | ldhCA
  | ldhAC
  | ldN16A (n : Word)
  | ldAN16 (n : Word)
  | addSpE8 (e : Byte)
  | ldHlSpE8 (e : Byte)
  | ldSpHl
  | di
  | ei
  | rlcR8 (r : R8)
  | rrcR8 (r : R8)
  | rlR8 (r : R8)
  | rrR8 (r : R8)
  | slaR8 (r : R8)
  | sraR8 (r : R8)
  | swapR8 (r : R8)
  | srlR8 (r : R8)
  | bitU3R8 (u : Fin 8) (r : R8)
  | resU3R8 (u : Fin 8) (r : R8)
  | setU3R8 (u : Fin 8) (r : R8)
  deriving DecidableEq, Repr

/-- A row of the opcode table (R133), operands left out. -/
inductive Row where
  | nop | ldN16Sp | stop | jr | jrCc | ldR16N16 | addHlR16 | ldR16MemA | ldAR16Mem
  | incR16 | decR16 | incR8 | decR8 | ldR8N8 | rlca | rrca | rla | rra | daa | cpl | scf | ccf
  | halt | ldR8R8
  | addAR8 | adcAR8 | subAR8 | sbcAR8 | andAR8 | xorAR8 | orAR8 | cpAR8
  | addAN8 | adcAN8 | subAN8 | sbcAN8 | andAN8 | xorAN8 | orAN8 | cpAN8
  | retCc | ret | reti | jpCcN16 | jpN16 | jpHl | callCcN16 | callN16 | rst | pop | push
  | prefixCb | ldhN8A | ldhAN8 | ldhCA | ldhAC | ldN16A | ldAN16 | addSpE8 | ldHlSpE8 | ldSpHl
  | di | ei
  | rlcR8 | rrcR8 | rlR8 | rrR8 | slaR8 | sraR8 | swapR8 | srlR8 | bitU3R8 | resU3R8 | setU3R8
  deriving DecidableEq, Repr

end Sys2Proof
end

