-- ==== Sys2Proof/Config.lean ====
section
/-! DEFINITION. The parameters of the machine (R6), as plain data. They are fixed for a run: `State`
carries them in the one field `cfg`, which no step writes, so a claim over all states is a claim over
all settings. -/

namespace Sys2Proof

/-- `ADMITTED_SET` (R6, R134). -/
inductive AdmittedSet where
  | full
  | sourceNamed
  deriving DecidableEq, Repr

/-- Which of a row's costs applies (the columns of R483): `hl` is the form whose `r8` operand is
`[HL]`; `taken` and `notTaken` are the outcomes of a condition; `plain` is every other case. -/
inductive CostCase where
  | plain | hl | taken | notTaken
  deriving DecidableEq, Repr

/-- A key of the cycle table `CYCLES`: an opcode row with its case, one idle call of a halted core
(R433), or one interrupt entry (R430). -/
inductive CycleKey where
  | row (r : Row) (k : CostCase)
  | haltIdle
  | interruptEntry
  deriving DecidableEq, Repr

/-- The parameters that the step reads (R6). `lyOffset` is `LY_ADDR - 0xFF00`, so `LY_ADDR` lies in
0xFF00 to 0xFF7F by its type (R6, U16). `cycles` lists the entries of `CYCLES` that differ from the
default table of R483. `RESET_PC`, `RESET_SP`, `RESET_REGS`, `RESET_RAM` and `ROM` are arguments of
the launch (`Machine.Launch`), `LOGO_REF` an argument of the cartridge validation. -/
structure Config where
  admittedSet : AdmittedSet
  addspWideOverflow : Bool
  intDispatch : Bool
  lyOffset : Fin 128
  cycles : List (CycleKey × Nat)
  deriving DecidableEq, Repr

/-- The defaults of R6: `full`, `false`, `false`, `LY_ADDR = 0xFF44`, and the table of R483. -/
def Config.standard : Config where
  admittedSet := .full
  addspWideOverflow := false
  intDispatch := false
  lyOffset := 0x44
  cycles := []

end Sys2Proof
end

