-- ==== Sys2Proof/Machine/Bits.lean ====
section
/-! DEFINITION. Bit-field, byte-order and extension helpers (R7, R8, R26, R79). -/

namespace Sys2Proof

/-- `{hi, lo}` (R7): the 16-bit value with `hi` in bits 15 to 8. -/
def mkWord (hi lo : Byte) : Word := hi ++ lo

/-- `v[15:8]`. -/
def hiByte (v : Word) : Byte := v.extractLsb' 8 8

/-- `v[7:0]`. -/
def loByte (v : Word) : Byte := v.extractLsb' 0 8

/-- `sext_16` (R8): the same value read as a signed 8-bit number, modulo 65536. -/
def sext16 (v : Byte) : Word := v.signExtend 16

/-- `zext_16` (R8). -/
def zext16 (v : Byte) : Word := v.setWidth 16

end Sys2Proof
end

