-- ==== Sys2Proof/WellFormed.lean ====
section
/-! DEFINITION. Which terms of `Instr` are instructions of the table. Bit indexes, RST targets and
immediates are bounded by their types; two checks remain. -/

namespace Sys2Proof

/-- `LD [HL],[HL]` does not exist: its opcode 0x76 is `HALT` (R128). The prefix byte 0xCB alone is
not an instruction (R295). Every other term is one. -/
def Instr.wellFormed : Instr → Bool
  | .ldR8R8 dst src => !(dst == .hlInd && src == .hlInd)
  | .prefixCb => false
  | .nop | .ldN16Sp _ | .stop _ | .jr _ | .jrCc _ _ | .ldR16N16 _ _ | .addHlR16 _ | .ldR16MemA _
  | .ldAR16Mem _ | .incR16 _ | .decR16 _ | .incR8 _ | .decR8 _ | .ldR8N8 _ _ | .rlca | .rrca | .rla
  | .rra | .daa | .cpl | .scf | .ccf | .halt | .addAR8 _ | .adcAR8 _ | .subAR8 _ | .sbcAR8 _
  | .andAR8 _ | .xorAR8 _ | .orAR8 _ | .cpAR8 _ | .addAN8 _ | .adcAN8 _ | .subAN8 _ | .sbcAN8 _
  | .andAN8 _ | .xorAN8 _ | .orAN8 _ | .cpAN8 _ | .retCc _ | .ret | .reti | .jpCcN16 _ _ | .jpN16 _
  | .jpHl | .callCcN16 _ _ | .callN16 _ | .rst _ | .pop _ | .push _ | .ldhN8A _ | .ldhAN8 _ | .ldhCA
  | .ldhAC | .ldN16A _ | .ldAN16 _ | .addSpE8 _ | .ldHlSpE8 _ | .ldSpHl | .di | .ei | .rlcR8 _
  | .rrcR8 _ | .rlR8 _ | .rrR8 _ | .slaR8 _ | .sraR8 _ | .swapR8 _ | .srlR8 _ | .bitU3R8 _ _
  | .resU3R8 _ _ | .setU3R8 _ _ => true

end Sys2Proof
end

