-- ==== Sys2Proof/Decode.lean ====
section
/-! DEFINITION. The decoder (R110 to R130) and, after it, the encoder. The decoder is the ordered
template table of R123 to R126, first match wins (R112, R128); `decode` is total on byte lists and
rejects by name. -/

namespace Sys2Proof

/-! ## Operand codes -/

/-- R114. -/
def R8.ofBits (v : BitVec 3) : R8 :=
  match v.toNat with
  | 0 => .b | 1 => .c | 2 => .d | 3 => .e | 4 => .h | 5 => .l | 6 => .hlInd | _ => .a

/-- R115. -/
def R16.ofBits (v : BitVec 2) : R16 :=
  match v.toNat with
  | 0 => .bc | 1 => .de | 2 => .hl | _ => .sp

/-- R116. -/
def R16Stk.ofBits (v : BitVec 2) : R16Stk :=
  match v.toNat with
  | 0 => .bc | 1 => .de | 2 => .hl | _ => .af

/-- R117. -/
def R16Mem.ofBits (v : BitVec 2) : R16Mem :=
  match v.toNat with
  | 0 => .bc | 1 => .de | 2 => .hlInc | _ => .hlDec

/-- R118: the conventional NZ, Z, NC, C (C4). -/
def Cond.ofBits (v : BitVec 2) : Cond :=
  match v.toNat with
  | 0 => .nz | 1 => .z | 2 => .nc | _ => .c

/-! ## Formats and the field positions of R113 -/

/-- R113, and `PREFIX` for the row of the byte 0xCB (R133). -/
inductive Format where
  | op | opN8 | opE8 | opN16 | cbOp | prefixByte
  deriving DecidableEq, Repr

/-- The format column of the opcode table. -/
def Row.format : Row → Format
  | .nop | .addHlR16 | .ldR16MemA | .ldAR16Mem | .incR16 | .decR16 | .incR8 | .decR8 | .rlca
  | .rrca | .rla | .rra | .daa | .cpl | .scf | .ccf | .halt | .ldR8R8 | .addAR8 | .adcAR8 | .subAR8
  | .sbcAR8 | .andAR8 | .xorAR8 | .orAR8 | .cpAR8 | .retCc | .ret | .reti | .jpHl | .rst | .pop
  | .push | .ldhCA | .ldhAC | .ldSpHl | .di | .ei => .op
  | .ldN16Sp | .ldR16N16 | .jpCcN16 | .jpN16 | .callCcN16 | .callN16 | .ldN16A | .ldAN16 => .opN16
  | .stop | .ldR8N8 | .addAN8 | .adcAN8 | .subAN8 | .sbcAN8 | .andAN8 | .xorAN8 | .orAN8 | .cpAN8
  | .ldhN8A | .ldhAN8 => .opN8
  | .jr | .jrCc | .addSpE8 | .ldHlSpE8 => .opE8
  | .prefixCb => .prefixByte
  | .rlcR8 | .rrcR8 | .rlR8 | .rrR8 | .slaR8 | .sraR8 | .swapR8 | .srlR8 | .bitU3R8 | .resU3R8
  | .setU3R8 => .cbOp

/-- How many bytes follow the first byte of an instruction of the unprefixed table (R110, R130):
the immediate bytes, or the one opcode byte after 0xCB. -/
def Format.tailLength : Format → Nat
  | .op => 0
  | .opN8 => 1
  | .opE8 => 1
  | .opN16 => 2
  | .prefixByte => 1
  | .cbOp => 0

/-- The `length` column of the opcode table, in bytes, a prefix included (R130, R133). -/
def Format.length : Format → Nat
  | .op => 1
  | .opN8 => 2
  | .opE8 => 2
  | .opN16 => 3
  | .prefixByte => 1
  | .cbOp => 2

/-- The `source_named` column of the opcode table (R134). -/
def Row.sourceNamed : Row → Bool
  | .jrCc | .addHlR16 | .incR16 | .decR16 | .incR8 | .decR8 | .daa | .cpl | .ccf | .halt | .addAR8
  | .adcAR8 | .subAR8 | .sbcAR8 | .andAR8 | .xorAR8 | .orAR8 | .cpAR8 | .addAN8 | .adcAN8
  | .subAN8 | .sbcAN8 | .andAN8 | .xorAN8 | .orAN8 | .cpAN8 | .retCc | .jpCcN16 | .callCcN16
  | .callN16 | .addSpE8 | .di | .ei | .bitU3R8 => true
  | .nop | .ldN16Sp | .stop | .jr | .ldR16N16 | .ldR16MemA | .ldAR16Mem | .ldR8N8 | .rlca | .rrca
  | .rla | .rra | .scf | .ldR8R8 | .ret | .reti | .jpN16 | .jpHl | .rst | .pop | .push | .prefixCb
  | .ldhN8A | .ldhAN8 | .ldhCA | .ldhAC | .ldN16A | .ldAN16 | .ldHlSpE8 | .ldSpHl | .rlcR8
  | .rrcR8 | .rlR8 | .rrR8 | .slaR8 | .sraR8 | .swapR8 | .srlR8 | .resU3R8 | .setU3R8 => false

/-- `ddd`, also `ttt` and `bbb`: opcode bits 5 to 3 (R113). -/
def dddField (op : Byte) : BitVec 3 := op.extractLsb' 3 3

/-- `sss`: opcode bits 2 to 0. -/
def sssField (op : Byte) : BitVec 3 := op.extractLsb' 0 3

/-- `rr`: opcode bits 5 to 4. -/
def rrField (op : Byte) : BitVec 2 := op.extractLsb' 4 2

/-- `cc`: opcode bits 4 to 3. -/
def ccField (op : Byte) : BitVec 2 := op.extractLsb' 3 2

/-! ## The template tables -/

/-- One template as a mask and a value (R112): it matches `op` when `op & mask = value`. -/
structure Template where
  row : Row
  mask : Byte
  value : Byte
  deriving DecidableEq, Repr

/-- Whether a template matches an opcode byte (R112). -/
def Template.matchesOp (t : Template) (op : Byte) : Bool := op &&& t.mask == t.value

/-- R123: block 0 of the unprefixed map. -/
def templatesBlock0 : List Template :=
  [ ⟨.nop, 0b11111111, 0b00000000⟩, ⟨.ldN16Sp, 0b11111111, 0b00001000⟩,
    ⟨.stop, 0b11111111, 0b00010000⟩, ⟨.jr, 0b11111111, 0b00011000⟩,
    ⟨.jrCc, 0b11100111, 0b00100000⟩, ⟨.ldR16N16, 0b11001111, 0b00000001⟩,
    ⟨.addHlR16, 0b11001111, 0b00001001⟩, ⟨.ldR16MemA, 0b11001111, 0b00000010⟩,
    ⟨.ldAR16Mem, 0b11001111, 0b00001010⟩, ⟨.incR16, 0b11001111, 0b00000011⟩,
    ⟨.decR16, 0b11001111, 0b00001011⟩, ⟨.incR8, 0b11000111, 0b00000100⟩,
    ⟨.decR8, 0b11000111, 0b00000101⟩, ⟨.ldR8N8, 0b11000111, 0b00000110⟩,
    ⟨.rlca, 0b11111111, 0b00000111⟩, ⟨.rrca, 0b11111111, 0b00001111⟩,
    ⟨.rla, 0b11111111, 0b00010111⟩, ⟨.rra, 0b11111111, 0b00011111⟩,
    ⟨.daa, 0b11111111, 0b00100111⟩, ⟨.cpl, 0b11111111, 0b00101111⟩,
    ⟨.scf, 0b11111111, 0b00110111⟩, ⟨.ccf, 0b11111111, 0b00111111⟩ ]

/-- R124: blocks 1 and 2; `HALT` stands before `LD r8,r8` (R128). -/
def templatesBlock12 : List Template :=
  [ ⟨.halt, 0b11111111, 0b01110110⟩, ⟨.ldR8R8, 0b11000000, 0b01000000⟩,
    ⟨.addAR8, 0b11111000, 0b10000000⟩, ⟨.adcAR8, 0b11111000, 0b10001000⟩,
    ⟨.subAR8, 0b11111000, 0b10010000⟩, ⟨.sbcAR8, 0b11111000, 0b10011000⟩,
    ⟨.andAR8, 0b11111000, 0b10100000⟩, ⟨.xorAR8, 0b11111000, 0b10101000⟩,
    ⟨.orAR8, 0b11111000, 0b10110000⟩, ⟨.cpAR8, 0b11111000, 0b10111000⟩ ]

/-- R125: block 3, with the row of the 0xCB prefix byte. -/
def templatesBlock3 : List Template :=
  [ ⟨.addAN8, 0b11111111, 0b11000110⟩, ⟨.adcAN8, 0b11111111, 0b11001110⟩,
    ⟨.subAN8, 0b11111111, 0b11010110⟩, ⟨.sbcAN8, 0b11111111, 0b11011110⟩,
    ⟨.andAN8, 0b11111111, 0b11100110⟩, ⟨.xorAN8, 0b11111111, 0b11101110⟩,
    ⟨.orAN8, 0b11111111, 0b11110110⟩, ⟨.cpAN8, 0b11111111, 0b11111110⟩,
    ⟨.retCc, 0b11100111, 0b11000000⟩, ⟨.ret, 0b11111111, 0b11001001⟩,
    ⟨.reti, 0b11111111, 0b11011001⟩, ⟨.jpCcN16, 0b11100111, 0b11000010⟩,
    ⟨.jpN16, 0b11111111, 0b11000011⟩, ⟨.jpHl, 0b11111111, 0b11101001⟩,
    ⟨.callCcN16, 0b11100111, 0b11000100⟩, ⟨.callN16, 0b11111111, 0b11001101⟩ ]
  ++
  [ ⟨.rst, 0b11000111, 0b11000111⟩, ⟨.pop, 0b11001111, 0b11000001⟩,
    ⟨.push, 0b11001111, 0b11000101⟩, ⟨.prefixCb, 0b11111111, 0b11001011⟩,
    ⟨.ldhN8A, 0b11111111, 0b11100000⟩, ⟨.ldhAN8, 0b11111111, 0b11110000⟩,
    ⟨.ldhCA, 0b11111111, 0b11100010⟩, ⟨.ldhAC, 0b11111111, 0b11110010⟩,
    ⟨.ldN16A, 0b11111111, 0b11101010⟩, ⟨.ldAN16, 0b11111111, 0b11111010⟩,
    ⟨.addSpE8, 0b11111111, 0b11101000⟩, ⟨.ldHlSpE8, 0b11111111, 0b11111000⟩,
    ⟨.ldSpHl, 0b11111111, 0b11111001⟩, ⟨.di, 0b11111111, 0b11110011⟩,
    ⟨.ei, 0b11111111, 0b11111011⟩ ]

/-- R126: the table of the byte after 0xCB. -/
def templatesCb : List Template :=
  [ ⟨.rlcR8, 0b11111000, 0b00000000⟩, ⟨.rrcR8, 0b11111000, 0b00001000⟩,
    ⟨.rlR8, 0b11111000, 0b00010000⟩, ⟨.rrR8, 0b11111000, 0b00011000⟩,
    ⟨.slaR8, 0b11111000, 0b00100000⟩, ⟨.sraR8, 0b11111000, 0b00101000⟩,
    ⟨.swapR8, 0b11111000, 0b00110000⟩, ⟨.srlR8, 0b11111000, 0b00111000⟩,
    ⟨.bitU3R8, 0b11000000, 0b01000000⟩, ⟨.resU3R8, 0b11000000, 0b10000000⟩,
    ⟨.setU3R8, 0b11000000, 0b11000000⟩ ]

/-- The unprefixed table, in priority order. -/
def templates : List Template := templatesBlock0 ++ templatesBlock12 ++ templatesBlock3

/-- "the first template that matches (in priority order) selects the instruction" (R112). -/
def firstMatch (ts : List Template) (op : Byte) : Option Row :=
  match ts with
  | [] => none
  | t :: rest => if t.matchesOp op then some t.row else firstMatch rest op

/-! ## Decoding -/

/-- The instruction of a row whose opcode byte is `op` and whose immediate bytes are `lo` and `hi`
in fetch order (R120 to R122); a row without immediates does not look at them. -/
def assemble (row : Row) (op lo hi : Byte) : Instr :=
  match row with
  | .nop => .nop
  | .ldN16Sp => .ldN16Sp (mkWord hi lo)
  | .stop => .stop lo
  | .jr => .jr lo
  | .jrCc => .jrCc (.ofBits (ccField op)) lo
  | .ldR16N16 => .ldR16N16 (.ofBits (rrField op)) (mkWord hi lo)
  | .addHlR16 => .addHlR16 (.ofBits (rrField op))
  | .ldR16MemA => .ldR16MemA (.ofBits (rrField op))
  | .ldAR16Mem => .ldAR16Mem (.ofBits (rrField op))
  | .incR16 => .incR16 (.ofBits (rrField op))
  | .decR16 => .decR16 (.ofBits (rrField op))
  | .incR8 => .incR8 (.ofBits (dddField op))
  | .decR8 => .decR8 (.ofBits (dddField op))
  | .ldR8N8 => .ldR8N8 (.ofBits (dddField op)) lo
  | .rlca => .rlca
  | .rrca => .rrca
  | .rla => .rla
  | .rra => .rra
  | .daa => .daa
  | .cpl => .cpl
  | .scf => .scf
  | .ccf => .ccf
  | .halt => .halt
  | .ldR8R8 => .ldR8R8 (.ofBits (dddField op)) (.ofBits (sssField op))
  | .addAR8 => .addAR8 (.ofBits (sssField op))
  | .adcAR8 => .adcAR8 (.ofBits (sssField op))
  | .subAR8 => .subAR8 (.ofBits (sssField op))
  | .sbcAR8 => .sbcAR8 (.ofBits (sssField op))
  | .andAR8 => .andAR8 (.ofBits (sssField op))
  | .xorAR8 => .xorAR8 (.ofBits (sssField op))
  | .orAR8 => .orAR8 (.ofBits (sssField op))
  | .cpAR8 => .cpAR8 (.ofBits (sssField op))
  | .addAN8 => .addAN8 lo
  | .adcAN8 => .adcAN8 lo
  | .subAN8 => .subAN8 lo
  | .sbcAN8 => .sbcAN8 lo
  | .andAN8 => .andAN8 lo
  | .xorAN8 => .xorAN8 lo
  | .orAN8 => .orAN8 lo
  | .cpAN8 => .cpAN8 lo
  | .retCc => .retCc (.ofBits (ccField op))
  | .ret => .ret
  | .reti => .reti
  | .jpCcN16 => .jpCcN16 (.ofBits (ccField op)) (mkWord hi lo)
  | .jpN16 => .jpN16 (mkWord hi lo)
  | .jpHl => .jpHl
  | .callCcN16 => .callCcN16 (.ofBits (ccField op)) (mkWord hi lo)
  | .callN16 => .callN16 (mkWord hi lo)
  | .rst => .rst (dddField op).toFin
  | .pop => .pop (.ofBits (rrField op))
  | .push => .push (.ofBits (rrField op))
  | .prefixCb => .prefixCb
  | .ldhN8A => .ldhN8A lo
  | .ldhAN8 => .ldhAN8 lo
  | .ldhCA => .ldhCA
  | .ldhAC => .ldhAC
  | .ldN16A => .ldN16A (mkWord hi lo)
  | .ldAN16 => .ldAN16 (mkWord hi lo)
  | .addSpE8 => .addSpE8 lo
  | .ldHlSpE8 => .ldHlSpE8 lo
  | .ldSpHl => .ldSpHl
  | .di => .di
  | .ei => .ei
  | .rlcR8 => .rlcR8 (.ofBits (sssField op))
  | .rrcR8 => .rrcR8 (.ofBits (sssField op))
  | .rlR8 => .rlR8 (.ofBits (sssField op))
  | .rrR8 => .rrR8 (.ofBits (sssField op))
  | .slaR8 => .slaR8 (.ofBits (sssField op))
  | .sraR8 => .sraR8 (.ofBits (sssField op))
  | .swapR8 => .swapR8 (.ofBits (sssField op))
  | .srlR8 => .srlR8 (.ofBits (sssField op))
  | .bitU3R8 => .bitU3R8 (dddField op).toFin (.ofBits (sssField op))
  | .resU3R8 => .resU3R8 (dddField op).toFin (.ofBits (sssField op))
  | .setU3R8 => .setU3R8 (dddField op).toFin (.ofBits (sssField op))

/-- Why a byte list does not start with an instruction: its first byte is one of the eleven of R127,
or the list ends inside the instruction. -/
inductive DecodeError where
  | illegalOpcode (op : Byte)
  | truncated
  deriving DecidableEq, Repr

/-- The instruction a row makes of its opcode byte and the bytes behind it. -/
def decodeTail (row : Row) (op : Byte) (rest : List Byte) : Except DecodeError (Instr × List Byte) :=
  match row.format, rest with
  | .op, rest => .ok (assemble row op 0 0, rest)
  | .opN8, lo :: rest => .ok (assemble row op lo 0, rest)
  | .opE8, lo :: rest => .ok (assemble row op lo 0, rest)
  | .opN16, lo :: hi :: rest => .ok (assemble row op lo hi, rest)
  | .prefixByte, [] => .ok (.prefixCb, [])
  | .prefixByte, op2 :: rest =>
    match firstMatch templatesCb op2 with
    | some row2 => .ok (assemble row2 op2 0 0, rest)
    | none => .error (.illegalOpcode op2)
  | .cbOp, _ => .error (.illegalOpcode op)
  | .opN8, [] => .error .truncated
  | .opE8, [] => .error .truncated
  | .opN16, [] => .error .truncated
  | .opN16, [_] => .error .truncated

/-- R111, steps 1 to 3, on a list of bytes in memory order: the instruction it starts with and the
bytes after it. A prefix byte with no byte behind it is the row of R295. -/
def decode : List Byte → Except DecodeError (Instr × List Byte)
  | [] => .error .truncated
  | op :: rest =>
    match firstMatch templates op with
    | none => .error (.illegalOpcode op)
    | some row => decodeTail row op rest

/-- What the decoder reads from the instruction whose bits are `w`, the first byte in bits 7 to 0,
the second in bits 15 to 8, the third in bits 23 to 16; bits from `nbits` up are 0. -/
def decodeTableWord (nbits w : Nat) : Option Instr :=
  let v := BitVec.ofNat 24 (w % 2 ^ nbits)
  match decode [v.extractLsb' 0 8, v.extractLsb' 8 8, v.extractLsb' 16 8] with
  | .ok (i, _) => some i
  | .error _ => none

/-! ## The row of an instruction, and the encoder -/

/-- The row of the opcode table an instruction is of. -/
def Instr.row : Instr → Row
  | .nop => .nop
  | .ldN16Sp _ => .ldN16Sp
  | .stop _ => .stop
  | .jr _ => .jr
  | .jrCc _ _ => .jrCc
  | .ldR16N16 _ _ => .ldR16N16
  | .addHlR16 _ => .addHlR16
  | .ldR16MemA _ => .ldR16MemA
  | .ldAR16Mem _ => .ldAR16Mem
  | .incR16 _ => .incR16
  | .decR16 _ => .decR16
  | .incR8 _ => .incR8
  | .decR8 _ => .decR8
  | .ldR8N8 _ _ => .ldR8N8
  | .rlca => .rlca
  | .rrca => .rrca
  | .rla => .rla
  | .rra => .rra
  | .daa => .daa
  | .cpl => .cpl
  | .scf => .scf
  | .ccf => .ccf
  | .halt => .halt
  | .ldR8R8 _ _ => .ldR8R8
  | .addAR8 _ => .addAR8
  | .adcAR8 _ => .adcAR8
  | .subAR8 _ => .subAR8
  | .sbcAR8 _ => .sbcAR8
  | .andAR8 _ => .andAR8
  | .xorAR8 _ => .xorAR8
  | .orAR8 _ => .orAR8
  | .cpAR8 _ => .cpAR8
  | .addAN8 _ => .addAN8
  | .adcAN8 _ => .adcAN8
  | .subAN8 _ => .subAN8
  | .sbcAN8 _ => .sbcAN8
  | .andAN8 _ => .andAN8
  | .xorAN8 _ => .xorAN8
  | .orAN8 _ => .orAN8
  | .cpAN8 _ => .cpAN8
  | .retCc _ => .retCc
  | .ret => .ret
  | .reti => .reti
  | .jpCcN16 _ _ => .jpCcN16
  | .jpN16 _ => .jpN16
  | .jpHl => .jpHl
  | .callCcN16 _ _ => .callCcN16
  | .callN16 _ => .callN16
  | .rst _ => .rst
  | .pop _ => .pop
  | .push _ => .push
  | .prefixCb => .prefixCb
  | .ldhN8A _ => .ldhN8A
  | .ldhAN8 _ => .ldhAN8
  | .ldhCA => .ldhCA
  | .ldhAC => .ldhAC
  | .ldN16A _ => .ldN16A
  | .ldAN16 _ => .ldAN16
  | .addSpE8 _ => .addSpE8
  | .ldHlSpE8 _ => .ldHlSpE8
  | .ldSpHl => .ldSpHl
  | .di => .di
  | .ei => .ei
  | .rlcR8 _ => .rlcR8
  | .rrcR8 _ => .rrcR8
  | .rlR8 _ => .rlR8
  | .rrR8 _ => .rrR8
  | .slaR8 _ => .slaR8
  | .sraR8 _ => .sraR8
  | .swapR8 _ => .swapR8
  | .srlR8 _ => .srlR8
  | .bitU3R8 _ _ => .bitU3R8
  | .resU3R8 _ _ => .resU3R8
  | .setU3R8 _ _ => .setU3R8

/-- The code of an 8-bit operand (R114). -/
def R8.bits : R8 → BitVec 3
  | .b => 0 | .c => 1 | .d => 2 | .e => 3 | .h => 4 | .l => 5 | .hlInd => 6 | .a => 7

/-- The code of a 16-bit operand (R115). -/
def R16.bits : R16 → BitVec 2
  | .bc => 0 | .de => 1 | .hl => 2 | .sp => 3

/-- The code of a stack operand (R116). -/
def R16Stk.bits : R16Stk → BitVec 2
  | .bc => 0 | .de => 1 | .hl => 2 | .af => 3

/-- The code of an address operand (R117). -/
def R16Mem.bits : R16Mem → BitVec 2
  | .bc => 0 | .de => 1 | .hlInc => 2 | .hlDec => 3

/-- The code of a condition (R118). -/
def Cond.bits : Cond → BitVec 2
  | .nz => 0 | .z => 1 | .nc => 2 | .c => 3

/-- An opcode byte from its three parts, most significant first (R113). -/
def opByte233 (x : BitVec 2) (y z : BitVec 3) : Byte := x ++ y ++ z

/-- An opcode byte whose field is `rr`. -/
def opByte224 (x y : BitVec 2) (z : BitVec 4) : Byte := x ++ y ++ z

/-- An opcode byte whose field is `cc`. -/
def opByte323 (x : BitVec 3) (y : BitVec 2) (z : BitVec 3) : Byte := x ++ y ++ z

/-- The bytes of an instruction in memory order, from the templates of R123 to R126; an `n16` goes
low byte first (R121), a prefixed opcode behind 0xCB. -/
def encode : Instr → List Byte
  | .nop => [0b00000000]
  | .ldN16Sp n => [0b00001000, loByte n, hiByte n]
  | .stop n => [0b00010000, n]
  | .jr e => [0b00011000, e]
  | .jrCc cc e => [opByte323 0b001 cc.bits 0b000, e]
  | .ldR16N16 r n => [opByte224 0b00 r.bits 0b0001, loByte n, hiByte n]
  | .addHlR16 r => [opByte224 0b00 r.bits 0b1001]
  | .ldR16MemA r => [opByte224 0b00 r.bits 0b0010]
  | .ldAR16Mem r => [opByte224 0b00 r.bits 0b1010]
  | .incR16 r => [opByte224 0b00 r.bits 0b0011]
  | .decR16 r => [opByte224 0b00 r.bits 0b1011]
  | .incR8 r => [opByte233 0b00 r.bits 0b100]
  | .decR8 r => [opByte233 0b00 r.bits 0b101]
  | .ldR8N8 r n => [opByte233 0b00 r.bits 0b110, n]
  | .rlca => [0b00000111]
  | .rrca => [0b00001111]
  | .rla => [0b00010111]
  | .rra => [0b00011111]
  | .daa => [0b00100111]
  | .cpl => [0b00101111]
  | .scf => [0b00110111]
  | .ccf => [0b00111111]
  | .halt => [0b01110110]
  | .ldR8R8 dst src => [opByte233 0b01 dst.bits src.bits]
  | .addAR8 r => [opByte233 0b10 0b000 r.bits]
  | .adcAR8 r => [opByte233 0b10 0b001 r.bits]
  | .subAR8 r => [opByte233 0b10 0b010 r.bits]
  | .sbcAR8 r => [opByte233 0b10 0b011 r.bits]
  | .andAR8 r => [opByte233 0b10 0b100 r.bits]
  | .xorAR8 r => [opByte233 0b10 0b101 r.bits]
  | .orAR8 r => [opByte233 0b10 0b110 r.bits]
  | .cpAR8 r => [opByte233 0b10 0b111 r.bits]
  | .addAN8 n => [0b11000110, n]
  | .adcAN8 n => [0b11001110, n]
  | .subAN8 n => [0b11010110, n]
  | .sbcAN8 n => [0b11011110, n]
  | .andAN8 n => [0b11100110, n]
  | .xorAN8 n => [0b11101110, n]
  | .orAN8 n => [0b11110110, n]
  | .cpAN8 n => [0b11111110, n]
  | .retCc cc => [opByte323 0b110 cc.bits 0b000]
  | .ret => [0b11001001]
  | .reti => [0b11011001]
  | .jpCcN16 cc n => [opByte323 0b110 cc.bits 0b010, loByte n, hiByte n]
  | .jpN16 n => [0b11000011, loByte n, hiByte n]
  | .jpHl => [0b11101001]
  | .callCcN16 cc n => [opByte323 0b110 cc.bits 0b100, loByte n, hiByte n]
  | .callN16 n => [0b11001101, loByte n, hiByte n]
  | .rst tgt => [opByte233 0b11 (BitVec.ofFin tgt) 0b111]
  | .pop r => [opByte224 0b11 r.bits 0b0001]
  | .push r => [opByte224 0b11 r.bits 0b0101]
  | .prefixCb => [0b11001011]
  | .ldhN8A n => [0b11100000, n]
  | .ldhAN8 n => [0b11110000, n]
  | .ldhCA => [0b11100010]
  | .ldhAC => [0b11110010]
  | .ldN16A n => [0b11101010, loByte n, hiByte n]
  | .ldAN16 n => [0b11111010, loByte n, hiByte n]
  | .addSpE8 e => [0b11101000, e]
  | .ldHlSpE8 e => [0b11111000, e]
  | .ldSpHl => [0b11111001]
  | .di => [0b11110011]
  | .ei => [0b11111011]
  | .rlcR8 r => [0b11001011, opByte233 0b00 0b000 r.bits]
  | .rrcR8 r => [0b11001011, opByte233 0b00 0b001 r.bits]
  | .rlR8 r => [0b11001011, opByte233 0b00 0b010 r.bits]
  | .rrR8 r => [0b11001011, opByte233 0b00 0b011 r.bits]
  | .slaR8 r => [0b11001011, opByte233 0b00 0b100 r.bits]
  | .sraR8 r => [0b11001011, opByte233 0b00 0b101 r.bits]
  | .swapR8 r => [0b11001011, opByte233 0b00 0b110 r.bits]
  | .srlR8 r => [0b11001011, opByte233 0b00 0b111 r.bits]
  | .bitU3R8 u r => [0b11001011, opByte233 0b01 (BitVec.ofFin u) r.bits]
  | .resU3R8 u r => [0b11001011, opByte233 0b10 (BitVec.ofFin u) r.bits]
  | .setU3R8 u r => [0b11001011, opByte233 0b11 (BitVec.ofFin u) r.bits]

end Sys2Proof
end

