-- ==== Sys2Proof/Machine/Cycles.lean ====
section
/-! DEFINITION. The cycle table `CYCLES` (R482 to R484): the default of R483, and the entries a
configuration puts in its place. -/

namespace Sys2Proof.Machine

/-- R483, in CPU cycles. A case that a row does not have repeats the row's plain cost; `STOP` and the
prefix byte return no cost of their own and stand at 0. -/
def defaultCycles : CycleKey → Nat
  | .haltIdle => 1
  | .interruptEntry => 5
  | .row r k =>
    match r with
    | .nop => 1
    | .ldN16Sp => 5
    | .stop => 0
    | .jr => 3
    | .jrCc => match k with | .notTaken => 2 | .plain | .hl | .taken => 3
    | .ldR16N16 => 3
    | .addHlR16 => 2
    | .ldR16MemA => 2
    | .ldAR16Mem => 2
    | .incR16 => 2
    | .decR16 => 2
    | .incR8 => match k with | .hl => 3 | .plain | .taken | .notTaken => 1
    | .decR8 => match k with | .hl => 3 | .plain | .taken | .notTaken => 1
    | .ldR8N8 => match k with | .hl => 3 | .plain | .taken | .notTaken => 2
    | .rlca => 1
    | .rrca => 1
    | .rla => 1
    | .rra => 1
    | .daa => 1
    | .cpl => 1
    | .scf => 1
    | .ccf => 1
    | .halt => 1
    | .ldR8R8 => match k with | .hl => 2 | .plain | .taken | .notTaken => 1
    | .addAR8 | .adcAR8 | .subAR8 | .sbcAR8 | .andAR8 | .xorAR8 | .orAR8 | .cpAR8 =>
      match k with | .hl => 2 | .plain | .taken | .notTaken => 1
    | .addAN8 | .adcAN8 | .subAN8 | .sbcAN8 | .andAN8 | .xorAN8 | .orAN8 | .cpAN8 => 2
    | .retCc => match k with | .notTaken => 2 | .plain | .hl | .taken => 5
    | .ret => 4
    | .reti => 4
    | .jpCcN16 => match k with | .notTaken => 3 | .plain | .hl | .taken => 4
    | .jpN16 => 4
    | .jpHl => 1
    | .callCcN16 => match k with | .notTaken => 3 | .plain | .hl | .taken => 6
    | .callN16 => 6
    | .rst => 4
    | .pop => 3
    | .push => 4
    | .prefixCb => 0
    | .ldhN8A => 3
    | .ldhAN8 => 3
    | .ldhCA => 2
    | .ldhAC => 2
    | .ldN16A => 4
    | .ldAN16 => 4
    | .addSpE8 => 4
    | .ldHlSpE8 => 3
    | .ldSpHl => 2
    | .di => 1
    | .ei => 1
    | .rlcR8 | .rrcR8 | .rlR8 | .rrR8 | .slaR8 | .sraR8 | .swapR8 | .srlR8 =>
      match k with | .hl => 4 | .plain | .taken | .notTaken => 2
    | .bitU3R8 => match k with | .hl => 3 | .plain | .taken | .notTaken => 2
    | .resU3R8 => match k with | .hl => 4 | .plain | .taken | .notTaken => 2
    | .setU3R8 => match k with | .hl => 4 | .plain | .taken | .notTaken => 2

/-- The first entry of a table for a key. -/
def findCycles (t : List (CycleKey × Nat)) (k : CycleKey) : Option Nat :=
  match t with
  | [] => none
  | (k', n) :: rest => if k' = k then some n else findCycles rest k

/-- The cost the machine's `CYCLES` gives a key (R6, R482). -/
def cyclesOf (cfg : Config) (k : CycleKey) : Nat := (findCycles cfg.cycles k).getD (defaultCycles k)

end Sys2Proof.Machine
end

