-- ==== Sys2Proof/Machine/Memory.lean ====
section
/-! DEFINITION. Storage as data: a list of (address, byte) pairs in one canonical form, and its three
operations. Which addresses may be accessed is the bus's affair (`Machine/Bus.lean`). -/

namespace Sys2Proof.Machine

/-- All stored bytes of the 65536-byte address space (R60), the cartridge image's among them, in the
canonical form of `Memory.wf`. -/
abbrev Memory := List Host.Cell

/-- What an address that is not listed reads as. DESIGN CHOICE, unsafe, log 3: the spec leaves RAM at
reset unspecified (R45, D24); this model's reset has every such byte 0. -/
def unlistedByte : Byte := 0

/-- The byte stored at an address. -/
def Memory.read : Memory → Nat → Byte
  | [], _ => unlistedByte
  | (k, v) :: m, a => if k = a then v else Memory.read m a

/-- Takes every entry of an address out. -/
def Memory.erase (m : Memory) (a : Nat) : Memory :=
  match m with
  | [] => []
  | (k, v) :: rest => if k = a then Memory.erase rest a else (k, v) :: Memory.erase rest a

/-- Puts an entry before the first greater address. -/
def Memory.insert (m : Memory) (a : Nat) (v : Byte) : Memory :=
  match m with
  | [] => [(a, v)]
  | (k, w) :: rest => if a < k then (a, v) :: (k, w) :: rest else (k, w) :: Memory.insert rest a v

/-- Stores a byte; storing what an unlisted address reads as leaves the address unlisted. -/
def Memory.write (m : Memory) (a : Nat) (v : Byte) : Memory :=
  if v = unlistedByte then Memory.erase m a else Memory.insert (Memory.erase m a) a v

/-- Every entry's address lies at `low` or above, addresses rise strictly, all are 16-bit, and no
entry says what an unlisted address reads as. -/
def Memory.wfFrom (low : Nat) : Memory → Bool
  | [] => true
  | (k, v) :: m => decide (low ≤ k) && decide (k < 65536) && v != unlistedByte && Memory.wfFrom (k + 1) m

/-- The canonical form of memory: equal memories are equal lists. -/
def Memory.wf (m : Memory) : Bool := Memory.wfFrom 0 m

/-- The address of the published scanline byte (R37). -/
def lyAddr (cfg : Config) : Word := 0xFF00 + BitVec.ofNat 16 cfg.lyOffset.val

end Sys2Proof.Machine
end

