-- ==== Sys2Proof/Machine/State.lean ====
section
/-! DEFINITION. Everything the machine holds (10_state.md), the conditions that stop it, and reset. -/

namespace Sys2Proof.Machine

/-- The direction of a bus transaction (R402). -/
inductive AccessKind where
  | read | write
  deriving DecidableEq, Repr

/-- The opcode byte an `Unimplemented` condition records; for a prefixed instruction the pair 0xCB
and the second byte (R404). -/
inductive OpcodeBytes where
  | single (op : Byte)
  | prefixed (op2 : Byte)
  deriving DecidableEq, Repr

/-- Why a cartridge image is refused (R403). -/
inductive CartridgeDefect where
  | length (actual : Nat)
  | logo
  | headerChecksum (expected actual : Byte)
  | globalChecksum (expected actual : Word)
  deriving DecidableEq, Repr

/-- The four fatal conditions (R400 to R405). The state element `fault` latches one (R34, R412);
`step` answers `Host.Outcome.fault` with it from then on (R446). -/
inductive Fault where
  /-- R401. Raised by the decode step on one of the eleven bytes of R127. Safe: the spec stops too. -/
  | illegalOpcode (byte : Byte) (pc : Word)
  /-- R402. Raised by any bus transaction: an access to a prohibited region, a write to ROM. Safe. -/
  | illegalMemoryAccess (address : Word) (kind : AccessKind)
  /-- R403. Raised before execution by `loadCartridge` and `launch`, never by a step. Safe. -/
  | malformedCartridge (reason : CartridgeDefect)
  /-- R404. Raised by `STOP` (R294), and by the dispatch of an instruction that the admitted set does
  not hold. Safe. -/
  | unimplemented (opcode : OpcodeBytes) (pc : Word)
  deriving DecidableEq, Repr

/-- Why the model gives no meaning. -/
inductive Refusal where
  /-- Raised by an arm of `exec` whose instruction has no meaning yet; there is none. Safe. -/
  | notModelled (mnemonic : String)
  deriving DecidableEq, Repr

/-- The output events of the machine (R40, R439, R440). -/
inductive Event where
  | objectSearch (line : Nat)
  | pixelTransfer (line : Nat)
  | endOfFrame
  | publish (value : Byte)
  deriving DecidableEq, Repr

/-- The state of the machine. -/
structure State where
  /-- The accumulator (R21). -/
  a : Byte
  b : Byte
  c : Byte
  d : Byte
  e : Byte
  h : Byte
  l : Byte
  /-- Zero, bit 7 of F (R23); F is held as its four flags (R24). -/
  fz : Bool
  /-- Subtraction, bit 6 of F. -/
  fn : Bool
  /-- Half-Carry, bit 5 of F. -/
  fh : Bool
  /-- Carry, bit 4 of F. -/
  fc : Bool
  /-- R30. -/
  sp : Word
  /-- R29. -/
  pc : Word
  /-- R31. -/
  ime : Bool
  /-- R32. -/
  imePending : Bool
  /-- R33. -/
  halted : Bool
  /-- R34. -/
  fault : Option Fault
  /-- The dot accumulator of the Video Timing Unit (R35). -/
  dots : Nat
  /-- The scanline counter (R35). -/
  ly : Nat
  /-- The Memory Bus's storage (R41, R61): ROM, RAM, OAM, I/O, high RAM and IE. -/
  mem : Memory
  /-- The event trace, oldest first (R40). -/
  events : List Event
  /-- The model's own field: the cost that the last call of `execute_next_instruction` returned, an
  output to the sequencer (R11, R435). No step reads the value it finds there. -/
  cost : Nat
  /-- The parameters of the machine (R6, R39), fixed for the run. -/
  cfg : Config
  deriving DecidableEq, Repr

/-- What a launch supplies (R6, R45): the parameters, `RESET_PC`, `RESET_SP`, `RESET_REGS`, and the
storage, which holds `ROM` below 0x8000 and `RESET_RAM` from there. -/
structure Launch where
  cfg : Config
  pc : Word
  sp : Word
  a : Byte
  b : Byte
  c : Byte
  d : Byte
  e : Byte
  h : Byte
  l : Byte
  fz : Bool
  fn : Bool
  fh : Bool
  fc : Bool
  mem : Memory
  deriving DecidableEq, Repr

/-- R45, R470: the state after reset of a launch. -/
def State.resetOf (L : Launch) : State where
  a := L.a
  b := L.b
  c := L.c
  d := L.d
  e := L.e
  h := L.h
  l := L.l
  fz := L.fz
  fn := L.fn
  fh := L.fh
  fc := L.fc
  sp := L.sp
  pc := L.pc
  ime := false
  imePending := false
  halted := false
  fault := none
  dots := 0
  ly := 0
  mem := L.mem.write (lyAddr L.cfg).toNat 0
  events := []
  cost := 0
  cfg := L.cfg

/-- The launch with every parameter at its default (R6): `RESET_PC` 0x0100, `RESET_SP` 0xFFFE. The
registers and flags that R45 leaves unspecified stand at 0 and false (DESIGN CHOICE, unsafe, log 2),
and so does all storage, no cartridge being loaded (log 3, log 4). -/
def Launch.standard : Launch where
  cfg := .standard
  pc := 0x0100
  sp := 0xFFFE
  a := 0
  b := 0
  c := 0
  d := 0
  e := 0
  h := 0
  l := 0
  fz := false
  fn := false
  fh := false
  fc := false
  mem := []

/-- The machine right after reset, parameters at their defaults (R45). -/
def State.reset : State := State.resetOf Launch.standard

end Sys2Proof.Machine
end

