-- ==== Sys2Proof/Machine/Flags.lean ====
section
/-! DEFINITION. The ALU functions and every flag computation (40_alu8.md section 1, R182, R200, R204,
R220), the views of F, and the conditions (R260). "All arithmetic is performed widened" (R150): sums
and differences are exact in `Nat` or `Int`, flags come from them, and the result is cut last. -/

namespace Sys2Proof.Machine

/-- A result byte and the four flags an ALU function returns. -/
structure AluOut where
  res : Byte
  z : Bool
  n : Bool
  h : Bool
  c : Bool
  deriving DecidableEq, Repr

/-- `Add8(a, b, cin)` (R151); the half-carry is the carry out of bit 3 (C1). -/
def add8 (a b : Byte) (cin : Bool) : AluOut :=
  let sum := a.toNat + b.toNat + cin.toNat
  { res := BitVec.ofNat 8 sum
    z := BitVec.ofNat 8 sum == 0
    n := false
    h := decide (a.toNat % 16 + b.toNat % 16 + cin.toNat > 15)
    c := decide (sum > 255) }

/-- `Sub8(a, b, cin)` (R152). -/
def sub8 (a b : Byte) (cin : Bool) : AluOut :=
  let diff : Int := (a.toNat : Int) - (b.toNat : Int) - (cin.toNat : Int)
  { res := BitVec.ofInt 8 diff
    z := BitVec.ofInt 8 diff == 0
    n := true
    h := decide (a.toNat % 16 < b.toNat % 16 + cin.toNat)
    c := decide (diff < 0) }

/-- `And8(a, b)` (R153). -/
def and8 (a b : Byte) : AluOut :=
  { res := a &&& b, z := a &&& b == 0, n := false, h := true, c := false }

/-- `Xor8(a, b)` (R154). -/
def xor8 (a b : Byte) : AluOut :=
  { res := a ^^^ b, z := a ^^^ b == 0, n := false, h := false, c := false }

/-- `Or8(a, b)` (R155). -/
def or8 (a b : Byte) : AluOut :=
  { res := a ||| b, z := a ||| b == 0, n := false, h := false, c := false }

/-- A result byte and the flags of `Inc8` and `Dec8`, which have no carry output (R156). -/
structure IncOut where
  res : Byte
  z : Bool
  n : Bool
  h : Bool
  deriving DecidableEq, Repr

/-- `Inc8(v)` (R156). -/
def inc8 (v : Byte) : IncOut :=
  { res := v + 1, z := v + 1 == 0, n := false, h := decide (v.toNat % 16 = 15) }

/-- `Dec8(v)` (R156). -/
def dec8 (v : Byte) : IncOut :=
  { res := v - 1, z := v - 1 == 0, n := true, h := decide (v.toNat % 16 = 0) }

/-- The decimal adjustment of R182: the adjusted accumulator and the new carry. "99" is read as 0x99
(C2). -/
def daaAdjust (a : Byte) (fn fh fc : Bool) : Byte × Bool :=
  if fn then
    let a1 := if fc then a - 0x60 else a
    let a2 := if fh then a1 - 0x06 else a1
    (a2, fc)
  else
    let high := fc || decide (a.toNat > 0x99)
    let a1 := if high then a + 0x60 else a
    let a2 := if fh || decide (a1.toNat % 16 > 9) then a1 + 0x06 else a1
    (a2, high)

/-- A 16-bit result and the three flags `Add16` returns: there is no zero output (R200). -/
structure Add16Out where
  res : Word
  n : Bool
  h : Bool
  c : Bool
  deriving DecidableEq, Repr

/-- `Add16(a, b)` (R200); the half-carry is the carry out of bit 11 (C1). -/
def add16 (a b : Word) : Add16Out :=
  let sum := a.toNat + b.toNat
  { res := BitVec.ofNat 16 sum
    n := false
    h := decide (a.toNat % 4096 + b.toNat % 4096 > 4095)
    c := decide (sum > 65535) }

/-- A 16-bit result and the two flags `AddSpE8` computes; it forces the other two false (R204). -/
structure SpOut where
  res : Word
  h : Bool
  c : Bool
  deriving DecidableEq, Repr

/-- `AddSpE8(sp, e8)` (R204), with the parameter `ADDSP_WIDE_OVERFLOW` (D6). -/
def addSp (wideOverflow : Bool) (sp : Word) (e : Byte) : SpOut :=
  let wide := wideOverflow && decide (sp.toNat + (sext16 e).toNat > 65535)
  { res := sp + sext16 e
    h := decide (sp.toNat % 16 + e.toNat % 16 > 15) || wide
    c := decide (sp.toNat % 256 + e.toNat > 255) || wide }

/-! ## The byte transformations of R220, each a result and a carry-out -/

/-- A flag as bit 0 of a byte. -/
def bitByte (x : Bool) : Byte := if x then 1 else 0

def rlc (v : Byte) : Byte × Bool := ((v <<< 1) ||| bitByte (v.getLsbD 7), v.getLsbD 7)

def rrc (v : Byte) : Byte × Bool := ((v >>> 1) ||| (bitByte (v.getLsbD 0) <<< 7), v.getLsbD 0)

def rl (v : Byte) (cin : Bool) : Byte × Bool := ((v <<< 1) ||| bitByte cin, v.getLsbD 7)

def rr (v : Byte) (cin : Bool) : Byte × Bool := ((v >>> 1) ||| (bitByte cin <<< 7), v.getLsbD 0)

def sla (v : Byte) : Byte × Bool := (v <<< 1, v.getLsbD 7)

def sra (v : Byte) : Byte × Bool := ((v >>> 1) ||| (v &&& 0x80), v.getLsbD 0)

def swap (v : Byte) : Byte × Bool := ((v <<< 4) ||| (v >>> 4), false)

def srl (v : Byte) : Byte × Bool := (v >>> 1, v.getLsbD 0)

/-! ## Writing the flags -/

/-- Writes all four flags. -/
def State.setFlags (s : State) (z n h c : Bool) : State :=
  { s with fz := z, fn := n, fh := h, fc := c }

/-- Writes Zero, Subtraction and Half-Carry and leaves Carry (R156, R238). -/
def State.setZnh (s : State) (z n h : Bool) : State := { s with fz := z, fn := n, fh := h }

/-- Writes Subtraction, Half-Carry and Carry and leaves Zero (R184, R185, R201). -/
def State.setNhc (s : State) (n h c : Bool) : State := { s with fn := n, fh := h, fc := c }

/-- Stores an ALU result in A and its flags (R160 to R166). -/
def State.setAlu (s : State) (o : AluOut) : State :=
  { s with a := o.res, fz := o.z, fn := o.n, fh := o.h, fc := o.c }

/-- Stores the flags of an ALU result and drops the result (R167). -/
def State.setAluFlags (s : State) (o : AluOut) : State := s.setFlags o.z o.n o.h o.c

/-! ## The byte view of F -/

/-- `F = {fZ, fN, fH, fC, 0b0000}` (R23, R24). -/
def State.flagByte (s : State) : Byte :=
  BitVec.ofBool s.fz ++ BitVec.ofBool s.fn ++ BitVec.ofBool s.fh ++ BitVec.ofBool s.fc ++ 0#4

/-- The four flags from bits 7 to 4 of a byte; bits 3 to 0 are dropped (R27). -/
def State.setFlagByte (s : State) (v : Byte) : State :=
  s.setFlags (v.getLsbD 7) (v.getLsbD 6) (v.getLsbD 5) (v.getLsbD 4)

/-- `cond(cc)` (R260). -/
def condHolds (cc : Cond) (s : State) : Bool :=
  match cc with
  | .nz => !s.fz
  | .z => s.fz
  | .nc => !s.fc
  | .c => s.fc

end Sys2Proof.Machine
end

