-- ==== Sys2Proof/Machine/Bus.lean ====
section
/-! DEFINITION. The address map (R61, R62): the region of an address and what it allows. -/

namespace Sys2Proof.Machine

/-- The twelve regions of R61. -/
inductive Region where
  | romBank0 | romBank1 | videoRam | externalRam | workRam0 | workRam1 | echo | oam | unusable
  | ioRegisters | highRam | interruptEnable
  deriving DecidableEq, Repr

/-- The region of an address, a function of the address alone (R62). -/
def regionOf (a : Word) : Region :=
  if a.toNat ≤ 0x3FFF then .romBank0
  else if a.toNat ≤ 0x7FFF then .romBank1
  else if a.toNat ≤ 0x9FFF then .videoRam
  else if a.toNat ≤ 0xBFFF then .externalRam
  else if a.toNat ≤ 0xCFFF then .workRam0
  else if a.toNat ≤ 0xDFFF then .workRam1
  else if a.toNat ≤ 0xFDFF then .echo
  else if a.toNat ≤ 0xFE9F then .oam
  else if a.toNat ≤ 0xFEFF then .unusable
  else if a.toNat ≤ 0xFF7F then .ioRegisters
  else if a.toNat ≤ 0xFFFE then .highRam
  else .interruptEnable

/-- The first address of a region. -/
def Region.first : Region → Nat
  | .romBank0 => 0x0000
  | .romBank1 => 0x4000
  | .videoRam => 0x8000
  | .externalRam => 0xA000
  | .workRam0 => 0xC000
  | .workRam1 => 0xD000
  | .echo => 0xE000
  | .oam => 0xFE00
  | .unusable => 0xFEA0
  | .ioRegisters => 0xFF00
  | .highRam => 0xFF80
  | .interruptEnable => 0xFFFF

/-- The read column of R61: the two prohibited regions reject reads (R64). -/
def Region.readable : Region → Bool
  | .echo => false
  | .unusable => false
  | .romBank0 | .romBank1 | .videoRam | .externalRam | .workRam0 | .workRam1 | .oam | .ioRegisters
  | .highRam | .interruptEnable => true

/-- The write column of R61: ROM and the two prohibited regions reject writes (R63, R64). -/
def Region.writable : Region → Bool
  | .romBank0 => false
  | .romBank1 => false
  | .echo => false
  | .unusable => false
  | .videoRam | .externalRam | .workRam0 | .workRam1 | .oam | .ioRegisters | .highRam
  | .interruptEnable => true

/-- The region-relative offset of an address (R62). -/
def regionOffset (a : Word) : Nat := a.toNat - (regionOf a).first

/-- Whether a read at an address returns a byte. -/
def readable (a : Word) : Bool := (regionOf a).readable

/-- Whether a write at an address stores. -/
def writable (a : Word) : Bool := (regionOf a).writable

end Sys2Proof.Machine
end

