-- ==== Sys2Proof/Machine/Ops.lean ====
section
/-! DEFINITION. The shared operations: raising a condition, bus transactions, fetching, the stack, and
interrupt entry with its return. Each is written once; a meaning is a composition of them. -/

namespace Sys2Proof.Machine

/-- What `exec` and `step` answer. -/
abbrev Out := Host.Outcome State Fault Refusal

/-- The outcome of a piece of an instruction: it went on with a value, or a `raise` ended the
instruction in a state whose `fault` is set (R11, R412). -/
inductive Res (α : Type) where
  | ok (v : α) (s : State)
  | raised (s : State)

/-- Goes on with the next piece, unless the piece before raised. -/
def Res.bind {α β : Type} (x : Res α) (k : α → State → Res β) : Res β :=
  match x with
  | .ok v s => k v s
  | .raised s => .raised s

/-- Ends an instruction with its last piece: a raised condition is a next state with `fault` set
(log 1). -/
def Res.run {α : Type} (x : Res α) (k : α → State → Out) : Out :=
  match x with
  | .ok v s => k v s
  | .raised s => .next s

/-! ## Taking a fatal condition -/

/-- `raise` (R11, R412): the condition is latched; what happened before it stays. Nothing else
changes: no state is saved and control goes nowhere (R413). -/
def State.raise (s : State) (c : Fault) : State := { s with fault := some c }

/-! ## Storage and the bus -/

/-- The byte stored at an address, whatever the region. -/
def State.peek (s : State) (a : Word) : Byte := s.mem.read a.toNat

/-- Stores a byte at an address, whatever the region. -/
def State.poke (s : State) (a : Word) (v : Byte) : State := { s with mem := s.mem.write a.toNat v }

/-- `MemRead(a, 1)` (R76). -/
def busRead (a : Word) (s : State) : Res Byte :=
  if readable a then .ok (s.peek a) s else .raised (s.raise (.illegalMemoryAccess a .read))

/-- `MemWrite(a, 1, v)` (R77). -/
def busWrite (a : Word) (v : Byte) (s : State) : Res Unit :=
  if writable a then .ok () (s.poke a v) else .raised (s.raise (.illegalMemoryAccess a .write))

/-- `MemRead(a, 2)` (R78): two transactions, low byte first, the second address modulo 65536. -/
def busRead2 (a : Word) (s : State) : Res Word :=
  (busRead a s).bind fun lo s => (busRead (a + 1) s).bind fun hi s => .ok (mkWord hi lo) s

/-- `MemWrite(a, 2, v)` (R78). -/
def busWrite2 (a : Word) (v : Word) (s : State) : Res Unit :=
  (busWrite a (loByte v) s).bind fun _ s => busWrite (a + 1) (hiByte v) s

/-! ## Fetching -/

/-- `Fetch8()` (R10, R29): PC goes on only if the read did not raise. -/
def fetch8 (s : State) : Res Byte :=
  (busRead s.pc s).bind fun v s => .ok v { s with pc := s.pc + 1 }

/-- The next `n` bytes of the instruction, in memory order. -/
def fetchBytes (n : Nat) (s : State) : Res (List Byte) :=
  match n with
  | 0 => .ok [] s
  | n + 1 => (fetch8 s).bind fun v s => (fetchBytes n s).bind fun vs s => .ok (v :: vs) s

/-- R111, the fetch and decode steps: the opcode, then, if it matches no template, `IllegalOpcode`
with the address the byte came from (R127, R401); else the bytes behind it, and the instruction they
make. The last arm is never taken: a full instruction always decodes. -/
def fetchInstr (s : State) : Res Instr :=
  (fetch8 s).bind fun op s1 =>
    match firstMatch templates op with
    | none => .raised (s1.raise (.illegalOpcode op s.pc))
    | some row =>
      (fetchBytes row.format.tailLength s1).bind fun tail s2 =>
        match decode (op :: tail) with
        | .ok (i, _) => .ok i s2
        | .error _ => .raised (s2.raise (.illegalOpcode op s.pc))

/-! ## The stack -/

/-- `Push16(v)` (R340): high byte first, at the higher address. -/
def push16 (v : Word) (s : State) : Res Unit :=
  (busWrite (s.sp - 1) (hiByte v) { s with sp := s.sp - 1 }).bind fun _ s =>
    busWrite (s.sp - 1) (loByte v) { s with sp := s.sp - 1 }

/-- `Pop16()` (R340). -/
def pop16 (s : State) : Res Word :=
  (busRead s.sp s).bind fun lo s =>
    (busRead (s.sp + 1) { s with sp := s.sp + 1 }).bind fun hi s =>
      .ok (mkWord hi lo) { s with sp := s.sp + 1 }

/-! ## Cost -/

/-- `cost <- n` (R11) with the cost `CYCLES` gives a row in a case. -/
def State.charge (s : State) (r : Row) (k : CostCase) : State :=
  { s with cost := cyclesOf s.cfg (.row r k) }

/-! ## Interrupt entry and return (`INT_DISPATCH` only, R427 to R431) -/

/-- The address of IF (R427). -/
def ifAddr : Word := 0xFF0F

/-- The address of IE (R36). -/
def ieAddr : Word := 0xFFFF

/-- The pending and enabled sources, `IE & IF & 0x1F` (R428, R430). -/
def State.pendingEnabled (s : State) : Byte := s.peek ieAddr &&& s.peek ifAddr &&& 0x1F

/-- The index of the lowest set bit among bits 4 to 0 (R429: the lowest source is taken first). -/
def lowestSource (q : Byte) : Nat :=
  if q.getLsbD 0 then 0 else if q.getLsbD 1 then 1 else if q.getLsbD 2 then 2
  else if q.getLsbD 3 then 3 else 4

/-- Taking interrupt `i` (R430): `ime` off, its IF bit cleared, PC pushed, PC at 0x0040 + 8 * i. A
stack write may raise, as in `CALL`. -/
def enterInterrupt (i : Nat) (s : State) : Res Unit :=
  let s := { s with ime := false }
  let s := s.poke ifAddr (s.peek ifAddr &&& ~~~(1#8 <<< i))
  (push16 s.pc s).bind fun _ s =>
    .ok () { s with pc := 0x0040 + BitVec.ofNat 16 (8 * i), cost := cyclesOf s.cfg .interruptEntry }

/-- The return from an interrupt (R270): PC from the stack, then `ime` on, at once; if a stack read
raises, `ime` is not changed. `ime_pending` is left alone. -/
def returnFromInterrupt (s : State) : Res Unit :=
  (pop16 s).bind fun v s => .ok () { s with pc := v, ime := true }

end Sys2Proof.Machine
end

