-- ==== Sys2Proof/Machine/Operands.lean ====
section
/-! DEFINITION. The register pairs (R26, R27) and the operand forms (R114 to R117, R320). -/

namespace Sys2Proof.Machine

/-! ## Pairs: a view of two registers, high byte first -/

def State.bc (s : State) : Word := mkWord s.b s.c

def State.de (s : State) : Word := mkWord s.d s.e

def State.hl (s : State) : Word := mkWord s.h s.l

/-- `AF = {A, F}`, for `PUSH AF` and `POP AF` (R27). -/
def State.af (s : State) : Word := mkWord s.a s.flagByte

def State.setBc (s : State) (v : Word) : State := { s with b := hiByte v, c := loByte v }

def State.setDe (s : State) (v : Word) : State := { s with d := hiByte v, e := loByte v }

def State.setHl (s : State) (v : Word) : State := { s with h := hiByte v, l := loByte v }

/-- R27: A and the four flags; `v[3:0]` is dropped. -/
def State.setAf (s : State) (v : Word) : State :=
  { (s.setFlagByte (loByte v)) with a := hiByte v }

/-! ## The 8-bit operand -/

/-- `r8[c]` as a read (R9, R114): code 6 is one bus read at HL. -/
def readR8 (r : R8) (s : State) : Res Byte :=
  match r with
  | .b => .ok s.b s
  | .c => .ok s.c s
  | .d => .ok s.d s
  | .e => .ok s.e s
  | .h => .ok s.h s
  | .l => .ok s.l s
  | .hlInd => busRead s.hl s
  | .a => .ok s.a s

/-- `r8[c] <- v`: code 6 is one bus write at HL. -/
def writeR8 (r : R8) (v : Byte) (s : State) : Res Unit :=
  match r with
  | .b => .ok () { s with b := v }
  | .c => .ok () { s with c := v }
  | .d => .ok () { s with d := v }
  | .e => .ok () { s with e := v }
  | .h => .ok () { s with h := v }
  | .l => .ok () { s with l := v }
  | .hlInd => busWrite s.hl v s
  | .a => .ok () { s with a := v }

/-- The value of an 8-bit operand whose access the bus allows. -/
def r8Value (r : R8) (s : State) : Byte :=
  match r with
  | .b => s.b
  | .c => s.c
  | .d => s.d
  | .e => s.e
  | .h => s.h
  | .l => s.l
  | .hlInd => s.peek s.hl
  | .a => s.a

/-- The state after writing an 8-bit operand whose access the bus allows. -/
def r8Set (r : R8) (v : Byte) (s : State) : State :=
  match r with
  | .b => { s with b := v }
  | .c => { s with c := v }
  | .d => { s with d := v }
  | .e => { s with e := v }
  | .h => { s with h := v }
  | .l => { s with l := v }
  | .hlInd => s.poke s.hl v
  | .a => { s with a := v }

/-- The column of the cycle table for an 8-bit operand (R483). -/
def r8Cost : R8 → CostCase
  | .hlInd => .hl
  | .b | .c | .d | .e | .h | .l | .a => .plain

/-- The column for two 8-bit operands: `[HL]` if either is (R310). -/
def costCase2 (dst src : R8) : CostCase :=
  match r8Cost dst with
  | .hl => .hl
  | .plain | .taken | .notTaken => r8Cost src

/-! ## The 16-bit operands -/

/-- `r16[rr]` as a read (R115). -/
def r16Get (r : R16) (s : State) : Word :=
  match r with
  | .bc => s.bc
  | .de => s.de
  | .hl => s.hl
  | .sp => s.sp

/-- `r16[rr] <- v`. -/
def r16Set (r : R16) (v : Word) (s : State) : State :=
  match r with
  | .bc => s.setBc v
  | .de => s.setDe v
  | .hl => s.setHl v
  | .sp => { s with sp := v }

/-- `r16stk[rr]` as a read (R116). -/
def stkGet (r : R16Stk) (s : State) : Word :=
  match r with
  | .bc => s.bc
  | .de => s.de
  | .hl => s.hl
  | .af => s.af

/-- `r16stk[rr] <- v`. -/
def stkSet (r : R16Stk) (v : Word) (s : State) : State :=
  match r with
  | .bc => s.setBc v
  | .de => s.setDe v
  | .hl => s.setHl v
  | .af => s.setAf v

/-- The address an `r16mem` operand uses (R117). -/
def memAddr (r : R16Mem) (s : State) : Word :=
  match r with
  | .bc => s.bc
  | .de => s.de
  | .hlInc => s.hl
  | .hlDec => s.hl

/-- What happens to HL after the access (R117). -/
def memAfter (r : R16Mem) (s : State) : State :=
  match r with
  | .bc => s
  | .de => s
  | .hlInc => s.setHl (s.hl + 1)
  | .hlDec => s.setHl (s.hl - 1)

/-- `0xFF00 + zext_16(v)`: the address of the `LDH` forms (R316 to R319). -/
def highPage (v : Byte) : Word := 0xFF00 + zext16 v

end Sys2Proof.Machine
end

