-- ==== Sys2Proof/Machine/Alu16.lean ====
section
/-! DEFINITION. The meanings of 41_alu16.md. -/

namespace Sys2Proof.Machine

/-- R201: Zero is left. -/
def execAddHlR16 (r : R16) (s : State) : Out :=
  let o := add16 s.hl (r16Get r s)
  .next (((s.setHl o.res).setNhc o.n o.h o.c).charge .addHlR16 .plain)

/-- R202: no flag changes. -/
def execIncR16 (r : R16) (s : State) : Out :=
  .next ((r16Set r (r16Get r s + 1) s).charge .incR16 .plain)

/-- R203: no flag changes. -/
def execDecR16 (r : R16) (s : State) : Out :=
  .next ((r16Set r (r16Get r s - 1) s).charge .decR16 .plain)

/-- R205. -/
def execAddSpE8 (e : Byte) (s : State) : Out :=
  let o := addSp s.cfg.addspWideOverflow s.sp e
  .next (({ s with sp := o.res }.setFlags false false o.h o.c).charge .addSpE8 .plain)

/-- R206: SP is read only. -/
def execLdHlSpE8 (e : Byte) (s : State) : Out :=
  let o := addSp s.cfg.addspWideOverflow s.sp e
  .next (((s.setHl o.res).setFlags false false o.h o.c).charge .ldHlSpE8 .plain)

end Sys2Proof.Machine
end

