-- ==== Sys2Proof/Machine/Alu8.lean ====
section
/-! DEFINITION. The meanings of 40_alu8.md. A meaning starts after the whole instruction has been
fetched, so PC already points past it (R11). -/

namespace Sys2Proof.Machine

/-! ## Accumulator operations with a register operand (R159 to R167) -/

/-- R160. -/
def execAddAR8 (r : R8) (s : State) : Out :=
  (readR8 r s).run fun v s => .next ((s.setAlu (add8 s.a v false)).charge .addAR8 (r8Cost r))

/-- R161. -/
def execAdcAR8 (r : R8) (s : State) : Out :=
  (readR8 r s).run fun v s => .next ((s.setAlu (add8 s.a v s.fc)).charge .adcAR8 (r8Cost r))

/-- R162. -/
def execSubAR8 (r : R8) (s : State) : Out :=
  (readR8 r s).run fun v s => .next ((s.setAlu (sub8 s.a v false)).charge .subAR8 (r8Cost r))

/-- R163. -/
def execSbcAR8 (r : R8) (s : State) : Out :=
  (readR8 r s).run fun v s => .next ((s.setAlu (sub8 s.a v s.fc)).charge .sbcAR8 (r8Cost r))

/-- R164. -/
def execAndAR8 (r : R8) (s : State) : Out :=
  (readR8 r s).run fun v s => .next ((s.setAlu (and8 s.a v)).charge .andAR8 (r8Cost r))

/-- R165. -/
def execXorAR8 (r : R8) (s : State) : Out :=
  (readR8 r s).run fun v s => .next ((s.setAlu (xor8 s.a v)).charge .xorAR8 (r8Cost r))

/-- R166. -/
def execOrAR8 (r : R8) (s : State) : Out :=
  (readR8 r s).run fun v s => .next ((s.setAlu (or8 s.a v)).charge .orAR8 (r8Cost r))

/-- R167: the difference is dropped and A stays. -/
def execCpAR8 (r : R8) (s : State) : Out :=
  (readR8 r s).run fun v s => .next ((s.setAluFlags (sub8 s.a v false)).charge .cpAR8 (r8Cost r))

/-! ## Accumulator operations with an immediate operand (R169 to R177) -/

/-- R170. -/
def execAddAN8 (n : Byte) (s : State) : Out :=
  .next ((s.setAlu (add8 s.a n false)).charge .addAN8 .plain)

/-- R171. -/
def execAdcAN8 (n : Byte) (s : State) : Out :=
  .next ((s.setAlu (add8 s.a n s.fc)).charge .adcAN8 .plain)

/-- R172. -/
def execSubAN8 (n : Byte) (s : State) : Out :=
  .next ((s.setAlu (sub8 s.a n false)).charge .subAN8 .plain)

/-- R173. -/
def execSbcAN8 (n : Byte) (s : State) : Out :=
  .next ((s.setAlu (sub8 s.a n s.fc)).charge .sbcAN8 .plain)

/-- R174. -/
def execAndAN8 (n : Byte) (s : State) : Out :=
  .next ((s.setAlu (and8 s.a n)).charge .andAN8 .plain)

/-- R175. -/
def execXorAN8 (n : Byte) (s : State) : Out :=
  .next ((s.setAlu (xor8 s.a n)).charge .xorAN8 .plain)

/-- R176. -/
def execOrAN8 (n : Byte) (s : State) : Out :=
  .next ((s.setAlu (or8 s.a n)).charge .orAN8 .plain)

/-- R177. -/
def execCpAN8 (n : Byte) (s : State) : Out :=
  .next ((s.setAluFlags (sub8 s.a n false)).charge .cpAN8 .plain)

/-! ## Increment, decrement, adjustments -/

/-- R180: the operand is written before the flags, so a faulting write leaves them. -/
def execIncR8 (r : R8) (s : State) : Out :=
  (readR8 r s).run fun v s =>
    let o := inc8 v
    (writeR8 r o.res s).run fun _ s => .next ((s.setZnh o.z o.n o.h).charge .incR8 (r8Cost r))

/-- R181. -/
def execDecR8 (r : R8) (s : State) : Out :=
  (readR8 r s).run fun v s =>
    let o := dec8 v
    (writeR8 r o.res s).run fun _ s => .next ((s.setZnh o.z o.n o.h).charge .decR8 (r8Cost r))

/-- R182: Subtraction is left. -/
def execDaa (s : State) : Out :=
  let r := daaAdjust s.a s.fn s.fh s.fc
  .next ({ s with a := r.1, fz := r.1 == 0, fh := false, fc := r.2 }.charge .daa .plain)

/-- R183: Zero and Carry are left. -/
def execCpl (s : State) : Out :=
  .next ({ s with a := ~~~s.a, fn := true, fh := true }.charge .cpl .plain)

/-- R184: Zero is left. -/
def execScf (s : State) : Out :=
  .next ((s.setNhc false false true).charge .scf .plain)

/-- R185: Zero is left. -/
def execCcf (s : State) : Out :=
  .next ((s.setNhc false false (!s.fc)).charge .ccf .plain)

end Sys2Proof.Machine
end

