-- ==== Sys2Proof/Machine/ControlFlow.lean ====
section
/-! DEFINITION. The meanings of 43_control_flow.md. PC already points past the instruction. -/

namespace Sys2Proof.Machine

/-- `Push16(PC); PC <- target`: the transfer of `CALL` and `RST`. -/
def callTo (target : Word) (s : State) : Res Unit :=
  (push16 s.pc s).bind fun _ s => .ok () { s with pc := target }

/-- `PC <- Pop16()`. -/
def returnTo (s : State) : Res Unit :=
  (pop16 s).bind fun v s => .ok () { s with pc := v }

/-- R261. -/
def execJpN16 (n : Word) (s : State) : Out :=
  .next ({ s with pc := n }.charge .jpN16 .plain)

/-- R262. -/
def execJpCcN16 (cc : Cond) (n : Word) (s : State) : Out :=
  if condHolds cc s then .next ({ s with pc := n }.charge .jpCcN16 .taken)
  else .next (s.charge .jpCcN16 .notTaken)

/-- R263: the target is HL itself. -/
def execJpHl (s : State) : Out :=
  .next ({ s with pc := s.hl }.charge .jpHl .plain)

/-- R264. -/
def execJr (e : Byte) (s : State) : Out :=
  .next ({ s with pc := s.pc + sext16 e }.charge .jr .plain)

/-- R265. -/
def execJrCc (cc : Cond) (e : Byte) (s : State) : Out :=
  if condHolds cc s then .next ({ s with pc := s.pc + sext16 e }.charge .jrCc .taken)
  else .next (s.charge .jrCc .notTaken)

/-- R266. -/
def execCallN16 (n : Word) (s : State) : Out :=
  (callTo n s).run fun _ s => .next (s.charge .callN16 .plain)

/-- R267. -/
def execCallCcN16 (cc : Cond) (n : Word) (s : State) : Out :=
  if condHolds cc s then (callTo n s).run fun _ s => .next (s.charge .callCcN16 .taken)
  else .next (s.charge .callCcN16 .notTaken)

/-- R268. -/
def execRet (s : State) : Out :=
  (returnTo s).run fun _ s => .next (s.charge .ret .plain)

/-- R269. -/
def execRetCc (cc : Cond) (s : State) : Out :=
  if condHolds cc s then (returnTo s).run fun _ s => .next (s.charge .retCc .taken)
  else .next (s.charge .retCc .notTaken)

/-- R270. -/
def execReti (s : State) : Out :=
  (returnFromInterrupt s).run fun _ s => .next (s.charge .reti .plain)

/-- R273: the target is `zext_16(8 * ttt)` (R119). -/
def execRst (tgt : Fin 8) (s : State) : Out :=
  (callTo (BitVec.ofNat 16 (8 * tgt.val)) s).run fun _ s => .next (s.charge .rst .plain)

end Sys2Proof.Machine
end

