-- ==== Sys2Proof/Machine/Load16.lean ====
section
/-! DEFINITION. The meanings of 46_load16_stack.md. Only `POP AF` writes flags. -/

namespace Sys2Proof.Machine

/-- R341. -/
def execLdR16N16 (r : R16) (n : Word) (s : State) : Out :=
  .next ((r16Set r n s).charge .ldR16N16 .plain)

/-- R342: low byte first; if the second write raises, the first has been stored. -/
def execLdN16Sp (n : Word) (s : State) : Out :=
  (busWrite2 n s.sp s).run fun _ s => .next (s.charge .ldN16Sp .plain)

/-- R343. -/
def execLdSpHl (s : State) : Out :=
  .next ({ s with sp := s.hl }.charge .ldSpHl .plain)

/-- R346. -/
def execPush (r : R16Stk) (s : State) : Out :=
  (push16 (stkGet r s) s).run fun _ s => .next (s.charge .push .plain)

/-- R347: the destination is written only if both reads succeed. -/
def execPop (r : R16Stk) (s : State) : Out :=
  (pop16 s).run fun v s => .next ((stkSet r v s).charge .pop .plain)

end Sys2Proof.Machine
end

