-- ==== Sys2Proof/Machine/Load8.lean ====
section
/-! DEFINITION. The meanings of 45_load8.md. None writes a flag. -/

namespace Sys2Proof.Machine

/-- R310: the source is read before the destination is written, at the HL of before. The term with
both operands `[HL]` is no instruction (R128) and is never decoded. -/
def execLdR8R8 (dst src : R8) (s : State) : Out :=
  (readR8 src s).run fun v s =>
    (writeR8 dst v s).run fun _ s => .next (s.charge .ldR8R8 (costCase2 dst src))

/-- R311. -/
def execLdR8N8 (r : R8) (n : Byte) (s : State) : Out :=
  (writeR8 r n s).run fun _ s => .next (s.charge .ldR8N8 (r8Cost r))

/-- R312: a faulting write leaves HL. -/
def execLdR16MemA (r : R16Mem) (s : State) : Out :=
  (busWrite (memAddr r s) s.a s).run fun _ s => .next ((memAfter r s).charge .ldR16MemA .plain)

/-- R313: a faulting read leaves A and HL. -/
def execLdAR16Mem (r : R16Mem) (s : State) : Out :=
  (busRead (memAddr r s) s).run fun v s =>
    .next ((memAfter r { s with a := v }).charge .ldAR16Mem .plain)

/-- R314. -/
def execLdN16A (n : Word) (s : State) : Out :=
  (busWrite n s.a s).run fun _ s => .next (s.charge .ldN16A .plain)

/-- R315. -/
def execLdAN16 (n : Word) (s : State) : Out :=
  (busRead n s).run fun v s => .next ({ s with a := v }.charge .ldAN16 .plain)

/-- R316. -/
def execLdhN8A (n : Byte) (s : State) : Out :=
  (busWrite (highPage n) s.a s).run fun _ s => .next (s.charge .ldhN8A .plain)

/-- R317. -/
def execLdhAN8 (n : Byte) (s : State) : Out :=
  (busRead (highPage n) s).run fun v s => .next ({ s with a := v }.charge .ldhAN8 .plain)

/-- R318. -/
def execLdhCA (s : State) : Out :=
  (busWrite (highPage s.c) s.a s).run fun _ s => .next (s.charge .ldhCA .plain)

/-- R319. -/
def execLdhAC (s : State) : Out :=
  (busRead (highPage s.c) s).run fun v s => .next ({ s with a := v }.charge .ldhAC .plain)

end Sys2Proof.Machine
end

