-- ==== Sys2Proof/Machine/RotateShiftBit.lean ====
section
/-! DEFINITION. The meanings of 42_rotate_shift_bit.md. -/

namespace Sys2Proof.Machine

/-! ## Accumulator rotates: Zero is cleared whatever the result (R221 to R224) -/

/-- An accumulator rotate stores its result in A and its carry-out in Carry, the other flags false. -/
def State.setRotA (s : State) (o : Byte × Bool) : State :=
  { s with a := o.1, fz := false, fn := false, fh := false, fc := o.2 }

/-- R221. -/
def execRlca (s : State) : Out := .next ((s.setRotA (rlc s.a)).charge .rlca .plain)

/-- R222. -/
def execRrca (s : State) : Out := .next ((s.setRotA (rrc s.a)).charge .rrca .plain)

/-- R223. -/
def execRla (s : State) : Out := .next ((s.setRotA (rl s.a s.fc)).charge .rla .plain)

/-- R224. -/
def execRra (s : State) : Out := .next ((s.setRotA (rr s.a s.fc)).charge .rra .plain)

/-! ## Prefixed rotates, shifts and swap (R229, R241) -/

/-- R229: the operand is read, the result written back, and then the flags are written. -/
def rotateR8 (row : Row) (f : Byte → Bool → Byte × Bool) (r : R8) (s : State) : Out :=
  (readR8 r s).run fun v s =>
    let o := f v s.fc
    (writeR8 r o.1 s).run fun _ s =>
      .next ((s.setFlags (o.1 == 0) false false o.2).charge row (r8Cost r))

/-- R230. -/
def execRlcR8 (r : R8) (s : State) : Out := rotateR8 .rlcR8 (fun v _ => rlc v) r s

/-- R231. -/
def execRrcR8 (r : R8) (s : State) : Out := rotateR8 .rrcR8 (fun v _ => rrc v) r s

/-- R232. -/
def execRlR8 (r : R8) (s : State) : Out := rotateR8 .rlR8 rl r s

/-- R233. -/
def execRrR8 (r : R8) (s : State) : Out := rotateR8 .rrR8 rr r s

/-- R234. -/
def execSlaR8 (r : R8) (s : State) : Out := rotateR8 .slaR8 (fun v _ => sla v) r s

/-- R235. -/
def execSraR8 (r : R8) (s : State) : Out := rotateR8 .sraR8 (fun v _ => sra v) r s

/-- R236. -/
def execSwapR8 (r : R8) (s : State) : Out := rotateR8 .swapR8 (fun v _ => swap v) r s

/-- R237. -/
def execSrlR8 (r : R8) (s : State) : Out := rotateR8 .srlR8 (fun v _ => srl v) r s

/-! ## Bit operations (R238 to R241) -/

/-- R238: nothing is written back, and Carry is left. -/
def execBitU3R8 (u : Fin 8) (r : R8) (s : State) : Out :=
  (readR8 r s).run fun v s =>
    .next ((s.setZnh (!v.getLsbD u.val) false true).charge .bitU3R8 (r8Cost r))

/-- R239: the write happens also when the bit is already 0; no flag changes. -/
def execResU3R8 (u : Fin 8) (r : R8) (s : State) : Out :=
  (readR8 r s).run fun v s =>
    (writeR8 r (v &&& ~~~(1#8 <<< u.val)) s).run fun _ s => .next (s.charge .resU3R8 (r8Cost r))

/-- R240. -/
def execSetU3R8 (u : Fin 8) (r : R8) (s : State) : Out :=
  (readR8 r s).run fun v s =>
    (writeR8 r (v ||| (1#8 <<< u.val)) s).run fun _ s => .next (s.charge .setU3R8 (r8Cost r))

end Sys2Proof.Machine
end

