-- ==== Sys2Proof/Machine/System.lean ====
section
/-! DEFINITION. The meanings of 44_interrupt_system.md, the prefix byte's among them. -/

namespace Sys2Proof.Machine

/-- R290. -/
def execNop (s : State) : Out := .next (s.charge .nop .plain)

/-- R291: the latch is cleared too (D12). -/
def execDi (s : State) : Out :=
  .next ({ s with ime := false, imePending := false }.charge .di .plain)

/-- R292: `ime` itself is set at the end of the next instruction (R423). -/
def execEi (s : State) : Out := .next ({ s with imePending := true }.charge .ei .plain)

/-- R293. -/
def execHalt (s : State) : Out := .next ({ s with halted := true }.charge .halt .plain)

/-- R294: both bytes have been fetched; then `Unimplemented` with the address of the 0x10 byte. -/
def execStop (_n : Byte) (s : State) : Out :=
  .next (s.raise (.unimplemented (.single 0x10) (s.pc - 2)))

/-- The rule of the row that a byte selects in the CB table (R126), run with its operand and bit
index. -/
def runCb (op2 : Byte) (s : State) : Out :=
  match firstMatch templatesCb op2 with
  | some .rlcR8 => execRlcR8 (.ofBits (sssField op2)) s
  | some .rrcR8 => execRrcR8 (.ofBits (sssField op2)) s
  | some .rlR8 => execRlR8 (.ofBits (sssField op2)) s
  | some .rrR8 => execRrR8 (.ofBits (sssField op2)) s
  | some .slaR8 => execSlaR8 (.ofBits (sssField op2)) s
  | some .sraR8 => execSraR8 (.ofBits (sssField op2)) s
  | some .swapR8 => execSwapR8 (.ofBits (sssField op2)) s
  | some .srlR8 => execSrlR8 (.ofBits (sssField op2)) s
  | some .bitU3R8 => execBitU3R8 (dddField op2).toFin (.ofBits (sssField op2)) s
  | some .resU3R8 => execResU3R8 (dddField op2).toFin (.ofBits (sssField op2)) s
  | some .setU3R8 => execSetU3R8 (dddField op2).toFin (.ofBits (sssField op2)) s
  | _ => .next (s.raise (.illegalOpcode op2 (s.pc - 1)))

/-- R295: the prefix byte alone. PC points past 0xCB; the next byte is fetched and the row it selects
in the CB table is run (R111). `fetchInstr` takes both bytes at once, so a step runs the prefixed
instruction itself; this is the meaning of the table's own row of the prefix. The last arm of
`runCb` is never taken: all 256 bytes select one of the eleven rows (R126). -/
def execPrefixCb (s : State) : Out := (fetch8 s).run fun op2 s => runCb op2 s

end Sys2Proof.Machine
end

