-- ==== Sys2Proof/Machine/Dispatch.lean ====
section
/-! DEFINITION. One arm per constructor of `Instr`. -/

namespace Sys2Proof.Machine

/-- The rule of an instruction, run after its bytes have been fetched (R111 step 4). -/
def exec (i : Instr) (s : State) : Host.Outcome State Fault Refusal :=
  match i with
  | .nop => Sys2Proof.Machine.execNop s
  | .ldN16Sp n => Sys2Proof.Machine.execLdN16Sp n s
  | .stop n => Sys2Proof.Machine.execStop n s
  | .jr e => Sys2Proof.Machine.execJr e s
  | .jrCc cc e => Sys2Proof.Machine.execJrCc cc e s
  | .ldR16N16 r n => Sys2Proof.Machine.execLdR16N16 r n s
  | .addHlR16 r => Sys2Proof.Machine.execAddHlR16 r s
  | .ldR16MemA r => Sys2Proof.Machine.execLdR16MemA r s
  | .ldAR16Mem r => Sys2Proof.Machine.execLdAR16Mem r s
  | .incR16 r => Sys2Proof.Machine.execIncR16 r s
  | .decR16 r => Sys2Proof.Machine.execDecR16 r s
  | .incR8 r => Sys2Proof.Machine.execIncR8 r s
  | .decR8 r => Sys2Proof.Machine.execDecR8 r s
  | .ldR8N8 r n => Sys2Proof.Machine.execLdR8N8 r n s
  | .rlca => Sys2Proof.Machine.execRlca s
  | .rrca => Sys2Proof.Machine.execRrca s
  | .rla => Sys2Proof.Machine.execRla s
  | .rra => Sys2Proof.Machine.execRra s
  | .daa => Sys2Proof.Machine.execDaa s
  | .cpl => Sys2Proof.Machine.execCpl s
  | .scf => Sys2Proof.Machine.execScf s
  | .ccf => Sys2Proof.Machine.execCcf s
  | .halt => Sys2Proof.Machine.execHalt s
  | .ldR8R8 dst src => Sys2Proof.Machine.execLdR8R8 dst src s
  | .addAR8 r => Sys2Proof.Machine.execAddAR8 r s
  | .adcAR8 r => Sys2Proof.Machine.execAdcAR8 r s
  | .subAR8 r => Sys2Proof.Machine.execSubAR8 r s
  | .sbcAR8 r => Sys2Proof.Machine.execSbcAR8 r s
  | .andAR8 r => Sys2Proof.Machine.execAndAR8 r s
  | .xorAR8 r => Sys2Proof.Machine.execXorAR8 r s
  | .orAR8 r => Sys2Proof.Machine.execOrAR8 r s
  | .cpAR8 r => Sys2Proof.Machine.execCpAR8 r s
  | .addAN8 n => Sys2Proof.Machine.execAddAN8 n s
  | .adcAN8 n => Sys2Proof.Machine.execAdcAN8 n s
  | .subAN8 n => Sys2Proof.Machine.execSubAN8 n s
  | .sbcAN8 n => Sys2Proof.Machine.execSbcAN8 n s
  | .andAN8 n => Sys2Proof.Machine.execAndAN8 n s
  | .xorAN8 n => Sys2Proof.Machine.execXorAN8 n s
  | .orAN8 n => Sys2Proof.Machine.execOrAN8 n s
  | .cpAN8 n => Sys2Proof.Machine.execCpAN8 n s
  | .retCc cc => Sys2Proof.Machine.execRetCc cc s
  | .ret => Sys2Proof.Machine.execRet s
  | .reti => Sys2Proof.Machine.execReti s
  | .jpCcN16 cc n => Sys2Proof.Machine.execJpCcN16 cc n s
  | .jpN16 n => Sys2Proof.Machine.execJpN16 n s
  | .jpHl => Sys2Proof.Machine.execJpHl s
  | .callCcN16 cc n => Sys2Proof.Machine.execCallCcN16 cc n s
  | .callN16 n => Sys2Proof.Machine.execCallN16 n s
  | .rst tgt => Sys2Proof.Machine.execRst tgt s
  | .pop r => Sys2Proof.Machine.execPop r s
  | .push r => Sys2Proof.Machine.execPush r s
  | .prefixCb => Sys2Proof.Machine.execPrefixCb s
  | .ldhN8A n => Sys2Proof.Machine.execLdhN8A n s
  | .ldhAN8 n => Sys2Proof.Machine.execLdhAN8 n s
  | .ldhCA => Sys2Proof.Machine.execLdhCA s
  | .ldhAC => Sys2Proof.Machine.execLdhAC s
  | .ldN16A n => Sys2Proof.Machine.execLdN16A n s
  | .ldAN16 n => Sys2Proof.Machine.execLdAN16 n s
  | .addSpE8 e => Sys2Proof.Machine.execAddSpE8 e s
  | .ldHlSpE8 e => Sys2Proof.Machine.execLdHlSpE8 e s
  | .ldSpHl => Sys2Proof.Machine.execLdSpHl s
  | .di => Sys2Proof.Machine.execDi s
  | .ei => Sys2Proof.Machine.execEi s
  | .rlcR8 r => Sys2Proof.Machine.execRlcR8 r s
  | .rrcR8 r => Sys2Proof.Machine.execRrcR8 r s
  | .rlR8 r => Sys2Proof.Machine.execRlR8 r s
  | .rrR8 r => Sys2Proof.Machine.execRrR8 r s
  | .slaR8 r => Sys2Proof.Machine.execSlaR8 r s
  | .sraR8 r => Sys2Proof.Machine.execSraR8 r s
  | .swapR8 r => Sys2Proof.Machine.execSwapR8 r s
  | .srlR8 r => Sys2Proof.Machine.execSrlR8 r s
  | .bitU3R8 u r => Sys2Proof.Machine.execBitU3R8 u r s
  | .resU3R8 u r => Sys2Proof.Machine.execResU3R8 u r s
  | .setU3R8 u r => Sys2Proof.Machine.execSetU3R8 u r s

end Sys2Proof.Machine
end

