-- ==== Sys2Proof/Machine/Timing.lean ====
section
/-! DEFINITION. The Video Timing Unit (60_exceptions.md section 5). -/

namespace Sys2Proof.Machine

/-- Adds events to the trace. -/
def State.emit (s : State) (es : List Event) : State := { s with events := s.events ++ es }

/-- The two phases of a rendering line (R438, R439): events with no effect on state. -/
def renderPhases (s : State) : State :=
  if s.ly ≤ 143 then s.emit [.objectSearch s.ly, .pixelTransfer s.ly] else s

/-- R432: with `INT_DISPATCH`, line 144 requests the vertical-blank interrupt. -/
def requestVBlank (s : State) : State :=
  if s.cfg.intDispatch && s.ly == 144 then s.poke ifAddr (s.peek ifAddr ||| 1) else s

/-- Reaching 154 is the end of the frame and returns the counter to 0 (R440). -/
def wrapFrame (s : State) : State :=
  if s.ly = 154 then { (s.emit [.endOfFrame]) with ly := 0 } else s

/-- The publish (R438, R441): straight into the byte at `LY_ADDR`, which cannot fault. -/
def publishLy (s : State) : State :=
  (s.poke (lyAddr s.cfg) (BitVec.ofNat 8 s.ly)).emit [.publish (BitVec.ofNat 8 s.ly)]

/-- `AdvanceLine()` (R438). -/
def advanceLine (s : State) : State :=
  let s := renderPhases s
  let s := requestVBlank { s with ly := s.ly + 1 }
  publishLy (wrapFrame s)

/-- The loop of R437, run while there are at least 456 dots; `fuel` bounds the rounds. -/
def drainDots (fuel : Nat) (s : State) : State :=
  match fuel with
  | 0 => s
  | fuel + 1 =>
    if 456 ≤ s.dots then drainDots fuel (advanceLine { s with dots := s.dots - 456 }) else s

/-- `PpuStep(cpu_cycles)` (R437): 4 dots a cycle. The loop runs `dots / 456` times, no more. -/
def ppuStep (cycles : Nat) (s : State) : State :=
  drainDots ((s.dots + 4 * cycles) / 456) { s with dots := s.dots + 4 * cycles }

end Sys2Proof.Machine
end

