-- ==== Sys2Proof/Machine/Sequencer.lean ====
section
/-! DEFINITION. The parts of `execute_next_instruction` around an instruction's rule: the interrupt
check, the admitted set, the end-of-instruction latch step, and a halted core's idle call. -/

namespace Sys2Proof.Machine

/-- R430, R431: with `INT_DISPATCH`, a pending and enabled source ends the halted state, and with
`ime` it is taken. The value says whether one was taken, in which case no instruction runs. -/
def interruptCheck (s : State) : Res Bool :=
  if s.cfg.intDispatch && s.pendingEnabled != 0 then
    if s.ime then
      (enterInterrupt (lowestSource s.pendingEnabled) { s with halted := false }).bind
        fun _ s => .ok true s
    else .ok false { s with halted := false }
  else .ok false s

/-- Whether the admitted set holds an instruction (R134). -/
def admitted (cfg : Config) (i : Instr) : Bool :=
  match cfg.admittedSet with
  | .full => true
  | .sourceNamed => i.row.sourceNamed

/-- The opcode that `Unimplemented` records for an instruction (R404). -/
def opcodeBytes (i : Instr) : OpcodeBytes :=
  match encode i with
  | [] => .single 0
  | op :: rest => if op = 0xCB then .prefixed (rest.headD 0) else .single op

/-- The end-of-instruction latch step (R423); `p` is the latch as it stood before the fetch. -/
def latchStep (p : Bool) (s : State) : State :=
  if p && s.imePending then { s with ime := true, imePending := false } else s

/-- What follows an instruction's rule: nothing after a `raise` (R412); else the latch step, and the
timing unit is stepped by the cost returned (R446). -/
def finishStep (p : Bool) (o : Out) : Out :=
  match o with
  | .next s =>
    match s.fault with
    | some _ => .next s
    | none => let u := latchStep p s; .next (ppuStep u.cost u)
  | .fault f => .fault f
  | .refused r => .refused r

/-- A halted core's idle call (R433): nothing is fetched and the cost is that of one idle call. -/
def idleStep (s : State) : State :=
  let s := { s with cost := cyclesOf s.cfg .haltIdle }
  ppuStep s.cost s

/-- The dispatch of an instruction outside the admitted set (R404, D26): `pc0` is the address of its
first byte. -/
def refuseAdmission (i : Instr) (pc0 : Word) (s : State) : State :=
  s.raise (.unimplemented (opcodeBytes i) pc0)

end Sys2Proof.Machine
end

