-- ==== Sys2Proof/Machine/Step.lean ====
section
/-! DEFINITION. `MachineStep` (R446): one instruction, then the timing unit by its cost. -/

namespace Sys2Proof.Machine

/-- Fetch, decode, the admitted set, the instruction's rule, and what follows it (R111, R446). -/
def stepInstr (s : State) : Host.Outcome State Fault Refusal :=
  match fetchInstr s with
  | .raised t => .next t
  | .ok i t =>
    if admitted s.cfg i then finishStep s.imePending (exec i t)
    else .next (refuseAdmission i s.pc t)

/-- `MachineStep` (R446). With `fault` set no step is possible: the answer is the fault. A raised
condition is the next state with `fault` set and the timing unit not stepped (R412). -/
def step (s : State) : Host.Outcome State Fault Refusal :=
  match s.fault with
  | some f => .fault f
  | none =>
    match interruptCheck s with
    | .raised t => .next t
    | .ok true t => .next (ppuStep t.cost t)
    | .ok false t => if t.halted then .next (idleStep t) else stepInstr t

/-- The instruction whose bits are `w` stored at PC, where the next step fetches (its bytes in memory
order, bits from `nbits` up zero), and nothing in the way of the fetch: not halted, no fault. The
bytes go into storage whatever the region, as `ROM` is loaded from outside the machine. -/
def State.withFetchWord (s : State) (nbits w : Nat) : State :=
  let v := BitVec.ofNat 24 (w % 2 ^ nbits)
  let s := s.poke s.pc (v.extractLsb' 0 8)
  let s := s.poke (s.pc + 1) (v.extractLsb' 8 8)
  let s := s.poke (s.pc + 2) (v.extractLsb' 16 8)
  { s with halted := false, fault := none }

end Sys2Proof.Machine
end

