-- ==== Sys2Proof/Machine/Cartridge.lean ====
section
/-! DEFINITION. Loading and validating the cartridge image (R63, R75, R403, R471 to R475): what happens
before the first step. `LOGO_REF` is an argument (R472, D49). -/

namespace Sys2Proof.Machine

/-- `ROM[a]` of an image. -/
def imageByte (image : List Byte) (a : Nat) : Byte := image.getD a 0

/-- The entries storage lists for an image whose first byte lies at address `a`. -/
def romCells (a : Nat) (image : List Byte) : Memory :=
  match image with
  | [] => []
  | v :: rest => if v = unlistedByte then romCells (a + 1) rest else (a, v) :: romCells (a + 1) rest

/-- Storage without what it lists below 0x8000. -/
def dropRom (m : Memory) : Memory := m.filter fun cell => decide (0x8000 ≤ cell.1)

/-- `load_cartridge(bytes)` (R75): a sequence of 32768 bytes becomes the two ROM banks, verbatim; any
other length is refused and nothing is loaded. -/
def loadCartridge (image : List Byte) (m : Memory) : Except Fault Memory :=
  if image.length = 32768 then .ok (romCells 0 image ++ dropRom m)
  else .error (.malformedCartridge (.length image.length))

/-- `x <- mod8(x - byte - 1)` over the bytes of the header range (R473). -/
def headerSum (bytes : List Byte) : Byte := bytes.foldl (fun x v => x - v - 1) 0

/-- The 16-bit wraparound sum of bytes (R474). -/
def byteSum (bytes : List Byte) : Word := bytes.foldl (fun x v => x + v.setWidth 16) 0

/-- The expected header checksum: the bytes at 0x0134 to 0x014C (R473). -/
def expectedHeader (image : List Byte) : Byte := headerSum ((image.drop 0x134).take 25)

/-- The expected global checksum: every byte but the two at 0x014E and 0x014F (R474). -/
def expectedGlobal (image : List Byte) : Word := byteSum (image.take 0x14E ++ image.drop 0x150)

/-- The stored global checksum: big-endian (R474, C9). -/
def storedGlobal (image : List Byte) : Word := mkWord (imageByte image 0x14E) (imageByte image 0x14F)

/-- What is wrong with an image, if anything (R471 to R475). The spec names four defects and gives no
order among them; this one is the order of R471 to R474 (DESIGN CHOICE, log 8). -/
def cartridgeDefect (logoRef image : List Byte) : Option CartridgeDefect :=
  if image.length ≠ 32768 then some (.length image.length)
  else if (image.drop 0x104).take 48 ≠ logoRef then some .logo
  else if expectedHeader image ≠ imageByte image 0x14D then
    some (.headerChecksum (expectedHeader image) (imageByte image 0x14D))
  else if expectedGlobal image ≠ storedGlobal image then
    some (.globalChecksum (expectedGlobal image) (storedGlobal image))
  else none

/-- A launch (R470, R475): reset happens only for a valid image; for any other the result is
`MalformedCartridge` and no instruction executes. -/
def launch (logoRef image : List Byte) (L : Launch) : Out :=
  match cartridgeDefect logoRef image with
  | some d => .fault (.malformedCartridge d)
  | none =>
    match loadCartridge image L.mem with
    | .ok m => .next (State.resetOf { L with mem := m })
    | .error f => .fault f

end Sys2Proof.Machine
end

