-- ==== Sys2Proof/Machine/TileCodec.lean ====
section
/-! DEFINITION. The Tile Codec (20_memory.md section 5): a pure function of bytes. -/

namespace Sys2Proof.Machine

/-- Pixel `p` of a row, counted from the left: `2 * byte1[7-p] + byte0[7-p]` (R91, C3). -/
def rowPixel (byte0 byte1 : Byte) (p : Nat) : Nat :=
  2 * (byte1.getLsbD (7 - p)).toNat + (byte0.getLsbD (7 - p)).toNat

/-- `DecodeRow(byte0, byte1)` (R91): 8 pixels, the leftmost first. -/
def decodeRow (byte0 byte1 : Byte) : List Nat := (List.range 8).map (rowPixel byte0 byte1)

/-- `DecodeTile(t)` (R92): the rows of consecutive byte pairs, the top row first. -/
def decodeTile (t : List Byte) : List (List Nat) :=
  match t with
  | byte0 :: byte1 :: rest => decodeRow byte0 byte1 :: decodeTile rest
  | _ => []

/-- The first address of tile `n` of block `k` (R93). -/
def tileAddr (k n : Nat) : Nat := 0x8000 + 0x800 * k + 16 * n

/-- The 16 bytes of a tile, as video RAM holds them (R93). -/
def tileBytes (s : State) (k n : Nat) : List Byte :=
  (List.range 16).map fun j => s.mem.read (tileAddr k n + j)

/-- The pixel grid of a tile on demand, with no effect on state (R40, R95, R96). -/
def tileGrid (s : State) (k n : Nat) : List (List Nat) := decodeTile (tileBytes s k n)

/-- The tile-data block of a video-RAM address and the offset in it (R65); 0x9800 to 0x9FFF is in no
block (R66), and neither is any other address. -/
def tileBlock (a : Word) : Option (Nat × Nat) :=
  if 0x8000 ≤ a.toNat ∧ a.toNat ≤ 0x97FF then
    some ((a.toNat - 0x8000) / 0x800, (a.toNat - 0x8000) % 0x800)
  else none

end Sys2Proof.Machine
end

