-- ==== Sys2Proof/Machine/Run.lean ====
section
/-! DEFINITION. The end of a run (R447, D50): where a driver that follows the spec's convention stops
calling `MachineStep`. It is a convention about runs: `step` itself goes on from a halted state. -/

namespace Sys2Proof.Machine

/-- A run ends at a state that is halted or has a condition latched (R447, R412). -/
def State.ended (s : State) : Bool := s.halted || s.fault.isSome

/-- The end of the run from a state: the first state that has ended, itself included, if at most `fuel`
steps lead to it. A program that loops for ever without `HALT` has none, whatever the fuel (R447). -/
def runToEnd (fuel : Nat) (s : State) : Option State :=
  if s.ended then some s
  else
    match fuel with
    | 0 => none
    | fuel + 1 =>
      match step s with
      | .next t => runToEnd fuel t
      | .fault _ => none
      | .refused _ => none

end Sys2Proof.Machine
end

