-- ==== Sys2Proof/Safety.lean ====
section
/-! DEFINITION. The invariant of R42, what counts as a safe step, and how a run ends (R447). -/

namespace Sys2Proof.Machine

/-- What holds between any two steps (R42): storage is in its canonical form, and lists nothing in the
two prohibited regions, where nothing is ever stored (R64); `0 <= dots <= 455`; `0 <= ly <= 153`. The
other clauses of R42 are about two states (`RomUnchanged` and the like) or hold by the shape of
`State` (`F[3:0] = 0`, R24). -/
structure Inv (s : State) : Prop where
  memWf : s.mem.wf = true
  noProhibited : ∀ a : Word, readable a = false → s.peek a = unlistedByte
  dots : s.dots ≤ 455
  ly : s.ly ≤ 153

/-- A safe step goes on and latches no condition: a state with `fault` set is a failed run (R412). -/
def SafeStep (s : State) : Prop := ∃ t, step s = .next t ∧ t.fault = none

/-- A run of `n` safe steps. -/
def SafeRun : Nat → State → Prop
  | 0, s => s.fault = none
  | n + 1, s => ∃ t, step s = .next t ∧ t.fault = none ∧ SafeRun n t

/-- The run from `s` ends, and `e` is its end: the first state halted or with `fault` set (R447, D50).
A run that loops for ever without `HALT` has no end. The convention is the same with `INT_DISPATCH`,
where a halted core can still be woken (log 14). -/
def RunEnds (s e : State) : Prop := ∃ n, runToEnd n s = some e

/-- The run ends halted, with no condition latched. -/
def RunCompletes (s e : State) : Prop := RunEnds s e ∧ e.fault = none

/-- The run ends with a condition latched: a failed run (R412, R447). -/
def RunFails (s e : State) : Prop := RunEnds s e ∧ e.fault ≠ none

end Sys2Proof.Machine
end

