-- ==== Sys2Proof/Certificates/Slice0/Obligations.lean ====
section
/-! DEFINITION. The statements for the provers, from the numbered rules of the spec. A raised condition
is a next state with `fault` set (log 1), so "completes" is said by an equation whose right side keeps
`fault`, or by `fault = none`. -/

namespace Sys2Proof.Claims

open Sys2Proof.Machine

/-- An 8-bit operand can be read: `[HL]` at a readable address, a register always (R114). -/
abbrev CanRead (r : R8) (s : State) : Prop := r = .hlInd → readable s.hl = true

/-- An 8-bit operand can be written. -/
abbrev CanWrite (r : R8) (s : State) : Prop := r = .hlInd → writable s.hl = true

/-- The cost `CYCLES` gives a row without cases. -/
abbrev cost (s : State) (row : Row) : Nat := cyclesOf s.cfg (.row row .plain)

/-- The cost of a row whose 8-bit operand may be `[HL]` (R483, R484). -/
abbrev costR8 (s : State) (row : Row) (r : R8) : Nat :=
  cyclesOf s.cfg (.row row (if r = .hlInd then .hl else .plain))

/-- The cost of a conditional row. -/
abbrev costCc (s : State) (row : Row) (taken : Bool) : Nat :=
  cyclesOf s.cfg (.row row (if taken then .taken else .notTaken))

/-- The addresses an instruction's rule stores to, from the state it starts in (R74). -/
def stores (i : Instr) (s : State) : List Word :=
  match i with
  | .incR8 .hlInd | .decR8 .hlInd | .ldR8N8 .hlInd _ | .ldR8R8 .hlInd _ | .rlcR8 .hlInd
  | .rrcR8 .hlInd | .rlR8 .hlInd | .rrR8 .hlInd | .slaR8 .hlInd | .sraR8 .hlInd | .swapR8 .hlInd
  | .srlR8 .hlInd | .resU3R8 _ .hlInd | .setU3R8 _ .hlInd => [s.hl]
  | .ldR16MemA r => [memAddr r s]
  | .ldN16A n => [n]
  | .ldhN8A n => [highPage n]
  | .ldhCA => [highPage s.c]
  | .ldN16Sp n => [n, n + 1]
  | .push _ | .callN16 _ | .rst _ => [s.sp - 1, s.sp - 2]
  | .callCcN16 cc _ => if condHolds cc s then [s.sp - 1, s.sp - 2] else []
  | _ => []

/-- The addresses an instruction's rule reads data from (R74). -/
def loads (i : Instr) (s : State) : List Word :=
  match i with
  | .incR8 .hlInd | .decR8 .hlInd | .ldR8R8 _ .hlInd | .addAR8 .hlInd | .adcAR8 .hlInd
  | .subAR8 .hlInd | .sbcAR8 .hlInd | .andAR8 .hlInd | .xorAR8 .hlInd | .orAR8 .hlInd
  | .cpAR8 .hlInd | .rlcR8 .hlInd | .rrcR8 .hlInd | .rlR8 .hlInd | .rrR8 .hlInd | .slaR8 .hlInd
  | .sraR8 .hlInd | .swapR8 .hlInd | .srlR8 .hlInd | .bitU3R8 _ .hlInd | .resU3R8 _ .hlInd
  | .setU3R8 _ .hlInd => [s.hl]
  | .ldAR16Mem r => [memAddr r s]
  | .ldAN16 n => [n]
  | .ldhAN8 n => [highPage n]
  | .ldhAC => [highPage s.c]
  | .pop _ | .ret | .reti => [s.sp, s.sp + 1]
  | .retCc cc => if condHolds cc s then [s.sp, s.sp + 1] else []
  | _ => []

/-- The registers a frame speaks of (R20): PC and the flags have frames of their own. -/
inductive RegName where
  | a | b | c | d | e | h | l | sp
  deriving DecidableEq, Repr

/-- The contents of a register as a number. -/
def regVal (r : RegName) (s : State) : Nat :=
  match r with
  | .a => s.a.toNat
  | .b => s.b.toNat
  | .c => s.c.toNat
  | .d => s.d.toNat
  | .e => s.e.toNat
  | .h => s.h.toNat
  | .l => s.l.toNat
  | .sp => s.sp.toNat

/-- The register of an 8-bit operand; `[HL]` is none. -/
def r8Regs : R8 → List RegName
  | .b => [.b] | .c => [.c] | .d => [.d] | .e => [.e] | .h => [.h] | .l => [.l] | .a => [.a]
  | .hlInd => []

/-- The registers of a 16-bit operand. -/
def r16Regs : R16 → List RegName
  | .bc => [.b, .c] | .de => [.d, .e] | .hl => [.h, .l] | .sp => [.sp]

/-- The registers of a stack operand besides the flags. -/
def stkRegs : R16Stk → List RegName
  | .bc => [.b, .c] | .de => [.d, .e] | .hl => [.h, .l] | .af => [.a]

/-- The registers an `r16mem` operand changes after the access (R117). -/
def memRegs : R16Mem → List RegName
  | .bc => [] | .de => [] | .hlInc => [.h, .l] | .hlDec => [.h, .l]

/-- The registers an instruction may change: its destination, and those its addressing mode updates
(SP for the stack instructions, HL for `[HL+]` and `[HL-]`). -/
def dests (i : Instr) (s : State) : List RegName :=
  match i with
  | .addAR8 _ | .adcAR8 _ | .subAR8 _ | .sbcAR8 _ | .andAR8 _ | .xorAR8 _ | .orAR8 _ | .addAN8 _
  | .adcAN8 _ | .subAN8 _ | .sbcAN8 _ | .andAN8 _ | .xorAN8 _ | .orAN8 _ | .rlca | .rrca | .rla | .rra
  | .daa | .cpl | .ldAN16 _ | .ldhAN8 _ | .ldhAC => [.a]
  | .incR8 r | .decR8 r | .ldR8N8 r _ | .ldR8R8 r _ | .rlcR8 r | .rrcR8 r | .rlR8 r | .rrR8 r | .slaR8 r
  | .sraR8 r | .swapR8 r | .srlR8 r | .resU3R8 _ r | .setU3R8 _ r => r8Regs r
  | .ldR16N16 r _ | .incR16 r | .decR16 r => r16Regs r
  | .addHlR16 _ | .ldHlSpE8 _ => [.h, .l]
  | .ldR16MemA r => memRegs r
  | .ldAR16Mem r => .a :: memRegs r
  | .pop r => .sp :: stkRegs r
  | .push _ | .callN16 _ | .rst _ | .ret | .reti | .addSpE8 _ | .ldSpHl => [.sp]
  | .callCcN16 cc _ | .retCc cc => if condHolds cc s then [.sp] else []
  | _ => []

/-- The four flags (R23). -/
inductive FlagName where
  | z | n | h | c
  deriving DecidableEq, Repr

/-- The value of a flag. -/
def flagVal (f : FlagName) (s : State) : Bool :=
  match f with
  | .z => s.fz
  | .n => s.fn
  | .h => s.fh
  | .c => s.fc

/-- The flags an instruction writes (R25, R186, R242 and the instruction rules). -/
def flagsWritten (i : Instr) : List FlagName :=
  match i with
  | .addAR8 _ | .adcAR8 _ | .subAR8 _ | .sbcAR8 _ | .andAR8 _ | .xorAR8 _ | .orAR8 _ | .cpAR8 _ | .addAN8 _
  | .adcAN8 _ | .subAN8 _ | .sbcAN8 _ | .andAN8 _ | .xorAN8 _ | .orAN8 _ | .cpAN8 _ | .rlca | .rrca | .rla
  | .rra | .rlcR8 _ | .rrcR8 _ | .rlR8 _ | .rrR8 _ | .slaR8 _ | .sraR8 _ | .swapR8 _ | .srlR8 _
  | .addSpE8 _ | .ldHlSpE8 _ | .pop .af => [.z, .n, .h, .c]
  | .incR8 _ | .decR8 _ | .bitU3R8 _ _ => [.z, .n, .h]
  | .daa => [.z, .h, .c]
  | .cpl => [.n, .h]
  | .scf | .ccf | .addHlR16 _ => [.n, .h, .c]
  | _ => []

/-- The instructions that write PC (43_control_flow.md). -/
def transfersControl : Instr → Bool
  | .jpN16 _ | .jpCcN16 _ _ | .jpHl | .jr _ | .jrCc _ _ | .callN16 _ | .callCcN16 _ _ | .ret | .retCc _ | .reti
  | .rst _ => true
  | _ => false

/-- A step fetches: no fault, not halted, and no interrupt taken (R446, R433): the extension is off, no
source is pending and enabled, or `ime` is false (R430). -/
def Fetches (s : State) : Prop :=
  s.fault = none ∧ s.halted = false ∧
    (s.cfg.intDispatch = false ∨ s.pendingEnabled = 0 ∨ s.ime = false)

/-- The address `k` bytes after PC, modulo 65536. -/
abbrev pcPlus (s : State) (k : Nat) : Word := s.pc + BitVec.ofNat 16 k

/-- Two decimal digits as a byte. -/
def bcd (x : Nat) : Byte := BitVec.ofNat 8 (16 * (x / 10) + x % 10)

/-- The byte at IF after bit `i` of it was cleared, its other bits as before (R430). -/
def RequestCleared (i : Nat) (s t : State) : Prop :=
  ∀ k < 8, (t.peek ifAddr).getLsbD k = ((s.peek ifAddr).getLsbD k && decide (k ≠ i))

/-- Rows that have one cost in one case. -/
def rowsAt (n : Nat) (k : CostCase) (rows : List Row) : List (CycleKey × Nat) :=
  rows.map fun r => (.row r k, n)

/-- The rows `OP A,r8`. -/
def aluR8Rows : List Row := [.addAR8, .adcAR8, .subAR8, .sbcAR8, .andAR8, .xorAR8, .orAR8, .cpAR8]

/-- The rows `OP A,n8`. -/
def aluN8Rows : List Row := [.addAN8, .adcAN8, .subAN8, .sbcAN8, .andAN8, .xorAN8, .orAN8, .cpAN8]

/-- The prefixed rows that write their operand back. -/
def cbWriteRows : List Row :=
  [.rlcR8, .rrcR8, .rlR8, .rrR8, .slaR8, .sraR8, .swapR8, .srlR8, .resU3R8, .setU3R8]

/-- Every cost R483 lists, grouped by cost: rows without cases and the forms on registers, the `[HL]`
forms, the conditional rows, the idle call of a halted core and an interrupt entry. -/
def listedCosts : List (CycleKey × Nat) :=
  rowsAt 1 .plain [.nop, .incR8, .decR8, .rlca, .rrca, .rla, .rra, .daa, .cpl, .scf, .ccf, .halt,
    .ldR8R8, .jpHl, .di, .ei] ++
  rowsAt 1 .plain aluR8Rows ++
  rowsAt 2 .plain [.addHlR16, .ldR16MemA, .ldAR16Mem, .incR16, .decR16, .ldR8N8, .ldhCA, .ldhAC, .ldSpHl,
    .bitU3R8] ++
  rowsAt 2 .plain aluN8Rows ++ rowsAt 2 .plain cbWriteRows ++
  rowsAt 3 .plain [.jr, .ldR16N16, .pop, .ldhN8A, .ldhAN8, .ldHlSpE8] ++
  rowsAt 4 .plain [.ret, .reti, .jpN16, .rst, .push, .ldN16A, .ldAN16, .addSpE8] ++
  rowsAt 5 .plain [.ldN16Sp] ++ rowsAt 6 .plain [.callN16] ++
  rowsAt 2 .hl (.ldR8R8 :: aluR8Rows) ++ rowsAt 3 .hl [.incR8, .decR8, .ldR8N8, .bitU3R8] ++
  rowsAt 4 .hl cbWriteRows ++
  [(.row .jrCc .taken, 3), (.row .jrCc .notTaken, 2), (.row .retCc .taken, 5), (.row .retCc .notTaken, 2),
    (.row .jpCcN16 .taken, 4), (.row .jpCcN16 .notTaken, 3), (.row .callCcN16 .taken, 6),
    (.row .callCcN16 .notTaken, 3), (.haltIdle, 1), (.interruptEntry, 5)]

/-- The sum of a list of bytes. -/
def sumBytes (l : List Byte) : Nat := (l.map BitVec.toNat).sum

/-- A cartridge image passes R471 to R474, sums written as numbers. -/
def ValidImage (logoRef image : List Byte) : Prop :=
  image.length = 32768 ∧ (image.drop 0x104).take 48 = logoRef ∧
  (sumBytes ((image.drop 0x134).take 25) + 25 + (imageByte image 0x14D).toNat) % 256 = 0 ∧
  sumBytes (image.take 0x14E ++ image.drop 0x150) % 65536 =
    256 * (imageByte image 0x14E).toNat + (imageByte image 0x14F).toNat

end Sys2Proof.Claims

section

open Sys2Proof Sys2Proof.Machine Sys2Proof.Claims

/-! ## 8-bit arithmetic and logic -/

/-- R151, R160, R161: `ADD A,r8` and `ADC A,r8` on every operand form; nothing else changes. -/
def Obligations.AddAndAdcRegisterForm : Prop :=
  ∀ (r : R8) (s : State), CanRead r s →
    exec (.addAR8 r) s = .next { s with
      a := BitVec.ofNat 8 (s.a.toNat + (r8Value r s).toNat)
      fz := decide ((s.a.toNat + (r8Value r s).toNat) % 256 = 0)
      fn := false
      fh := decide (15 < s.a.toNat % 16 + (r8Value r s).toNat % 16)
      fc := decide (255 < s.a.toNat + (r8Value r s).toNat)
      cost := costR8 s .addAR8 r } ∧
    exec (.adcAR8 r) s = .next { s with
      a := BitVec.ofNat 8 (s.a.toNat + (r8Value r s).toNat + s.fc.toNat)
      fz := decide ((s.a.toNat + (r8Value r s).toNat + s.fc.toNat) % 256 = 0)
      fn := false
      fh := decide (15 < s.a.toNat % 16 + (r8Value r s).toNat % 16 + s.fc.toNat)
      fc := decide (255 < s.a.toNat + (r8Value r s).toNat + s.fc.toNat)
      cost := costR8 s .adcAR8 r }

/-- R152, R162, R163: `SUB A,r8` and `SBC A,r8`; the borrow-in takes part in both borrow tests. -/
def Obligations.SubAndSbcRegisterForm : Prop :=
  ∀ (r : R8) (s : State), CanRead r s →
    exec (.subAR8 r) s = .next { s with
      a := s.a - r8Value r s
      fz := decide (s.a = r8Value r s)
      fn := true
      fh := decide (s.a.toNat % 16 < (r8Value r s).toNat % 16)
      fc := decide (s.a.toNat < (r8Value r s).toNat)
      cost := costR8 s .subAR8 r } ∧
    exec (.sbcAR8 r) s = .next { s with
      a := s.a - r8Value r s - BitVec.ofNat 8 s.fc.toNat
      fz := decide (s.a = r8Value r s + BitVec.ofNat 8 s.fc.toNat)
      fn := true
      fh := decide (s.a.toNat % 16 < (r8Value r s).toNat % 16 + s.fc.toNat)
      fc := decide (s.a.toNat < (r8Value r s).toNat + s.fc.toNat)
      cost := costR8 s .sbcAR8 r }

/-- R153 to R155, R164 to R166: `AND`, `XOR`, `OR` with a register form. -/
def Obligations.LogicRegisterForm : Prop :=
  ∀ (r : R8) (s : State), CanRead r s →
    exec (.andAR8 r) s = .next { s with
      a := s.a &&& r8Value r s, fz := decide (s.a &&& r8Value r s = 0), fn := false, fh := true,
      fc := false, cost := costR8 s .andAR8 r } ∧
    exec (.xorAR8 r) s = .next { s with
      a := s.a ^^^ r8Value r s, fz := decide (s.a = r8Value r s), fn := false, fh := false,
      fc := false, cost := costR8 s .xorAR8 r } ∧
    exec (.orAR8 r) s = .next { s with
      a := s.a ||| r8Value r s, fz := decide (s.a = 0 ∧ r8Value r s = 0), fn := false, fh := false,
      fc := false, cost := costR8 s .orAR8 r }

/-- R167, R177: `CP` writes the flags of the difference, and A stays. -/
def Obligations.CompareKeepsA : Prop :=
  (∀ (r : R8) (s : State), CanRead r s →
    exec (.cpAR8 r) s = .next { s with
      fz := decide (s.a = r8Value r s)
      fn := true
      fh := decide (s.a.toNat % 16 < (r8Value r s).toNat % 16)
      fc := decide (s.a.toNat < (r8Value r s).toNat)
      cost := costR8 s .cpAR8 r }) ∧
  (∀ (n : Byte) (s : State),
    exec (.cpAN8 n) s = .next { s with
      fz := decide (s.a = n)
      fn := true
      fh := decide (s.a.toNat % 16 < n.toNat % 16)
      fc := decide (s.a.toNat < n.toNat)
      cost := cost s .cpAN8 })

/-- R169 to R176: the seven immediate forms that write A. -/
def Obligations.AluImmediateForms : Prop :=
  ∀ (n : Byte) (s : State),
    exec (.addAN8 n) s = .next { s with
      a := BitVec.ofNat 8 (s.a.toNat + n.toNat)
      fz := decide ((s.a.toNat + n.toNat) % 256 = 0)
      fn := false
      fh := decide (15 < s.a.toNat % 16 + n.toNat % 16)
      fc := decide (255 < s.a.toNat + n.toNat)
      cost := cost s .addAN8 } ∧
    exec (.adcAN8 n) s = .next { s with
      a := BitVec.ofNat 8 (s.a.toNat + n.toNat + s.fc.toNat)
      fz := decide ((s.a.toNat + n.toNat + s.fc.toNat) % 256 = 0)
      fn := false
      fh := decide (15 < s.a.toNat % 16 + n.toNat % 16 + s.fc.toNat)
      fc := decide (255 < s.a.toNat + n.toNat + s.fc.toNat)
      cost := cost s .adcAN8 } ∧
    exec (.subAN8 n) s = .next { s with
      a := s.a - n
      fz := decide (s.a = n)
      fn := true
      fh := decide (s.a.toNat % 16 < n.toNat % 16)
      fc := decide (s.a.toNat < n.toNat)
      cost := cost s .subAN8 } ∧
    exec (.sbcAN8 n) s = .next { s with
      a := s.a - n - BitVec.ofNat 8 s.fc.toNat
      fz := decide (s.a = n + BitVec.ofNat 8 s.fc.toNat)
      fn := true
      fh := decide (s.a.toNat % 16 < n.toNat % 16 + s.fc.toNat)
      fc := decide (s.a.toNat < n.toNat + s.fc.toNat)
      cost := cost s .sbcAN8 } ∧
    exec (.andAN8 n) s = .next { s with
      a := s.a &&& n, fz := decide (s.a &&& n = 0), fn := false, fh := true, fc := false,
      cost := cost s .andAN8 } ∧
    exec (.xorAN8 n) s = .next { s with
      a := s.a ^^^ n, fz := decide (s.a = n), fn := false, fh := false, fc := false,
      cost := cost s .xorAN8 } ∧
    exec (.orAN8 n) s = .next { s with
      a := s.a ||| n, fz := decide (s.a = 0 ∧ n = 0), fn := false, fh := false, fc := false,
      cost := cost s .orAN8 }

/-- R156, R180, R181: `INC r8` and `DEC r8` wrap and never touch Carry; for `[HL]` the byte at HL is
written. -/
def Obligations.IncAndDecByte : Prop :=
  ∀ (r : R8) (s : State), CanWrite r s →
    exec (.incR8 r) s = .next { (r8Set r (BitVec.ofNat 8 ((r8Value r s).toNat + 1)) s) with
      fz := decide ((r8Value r s).toNat = 255)
      fn := false
      fh := decide ((r8Value r s).toNat % 16 = 15)
      cost := costR8 s .incR8 r } ∧
    exec (.decR8 r) s = .next { (r8Set r (BitVec.ofNat 8 ((r8Value r s).toNat + 255)) s) with
      fz := decide ((r8Value r s).toNat = 1)
      fn := true
      fh := decide ((r8Value r s).toNat % 16 = 0)
      cost := costR8 s .decR8 r }

/-- R182: `DAA`, the two adjustments written as one sum or difference. -/
def Obligations.DaaAdjustsByFlagsAndDigits : Prop :=
  ∀ s : State, exec .daa s = .next { s with
    a := BitVec.ofNat 8 (
      if s.fn then s.a.toNat + 512 - 0x60 * s.fc.toNat - 0x06 * s.fh.toNat
      else s.a.toNat + (if s.fc ∨ 0x99 < s.a.toNat then 0x60 else 0)
        + (if s.fh ∨ 9 < s.a.toNat % 16 then 0x06 else 0))
    fz := decide ((
      if s.fn then s.a.toNat + 512 - 0x60 * s.fc.toNat - 0x06 * s.fh.toNat
      else s.a.toNat + (if s.fc ∨ 0x99 < s.a.toNat then 0x60 else 0)
        + (if s.fh ∨ 9 < s.a.toNat % 16 then 0x06 else 0)) % 256 = 0)
    fh := false
    fc := if s.fn then s.fc else decide (s.fc ∨ 0x99 < s.a.toNat)
    cost := cost s .daa }

/-- What R182 is for: after an `ADC` or `SBC` of two two-digit decimal numbers, with the carry or
borrow in, `DAA` leaves the two digits of the decimal result and its carry or borrow. -/
def Obligations.DaaGivesDecimalResult : Prop :=
  ∀ (x y : Nat) (s : State), x < 100 → y < 100 → s.a = bcd x →
    (∃ t u, exec (.adcAN8 (bcd y)) s = .next t ∧ exec .daa t = .next u ∧
      u.a = bcd ((x + y + s.fc.toNat) % 100) ∧ u.fc = decide (100 ≤ x + y + s.fc.toNat)) ∧
    (∃ t u, exec (.sbcAN8 (bcd y)) s = .next t ∧ exec .daa t = .next u ∧
      u.a = bcd ((x + 100 - y - s.fc.toNat) % 100) ∧ u.fc = decide (x < y + s.fc.toNat))

/-- R183 to R185: `CPL`, `SCF`, `CCF` and the flags they leave. -/
def Obligations.ComplementAndCarryInstructions : Prop :=
  ∀ s : State,
    exec .cpl s = .next { s with
      a := s.a ^^^ 0xFF, fn := true, fh := true, cost := cost s .cpl } ∧
    exec .scf s = .next { s with fn := false, fh := false, fc := true, cost := cost s .scf } ∧
    exec .ccf s = .next { s with fn := false, fh := false, fc := !s.fc, cost := cost s .ccf }

/-! ## 16-bit arithmetic -/

/-- R200, R201: `ADD HL,r16`; Zero is left, also when the result is 0. -/
def Obligations.AddToHlLeavesZero : Prop :=
  ∀ (r : R16) (s : State), exec (.addHlR16 r) s = .next { s with
    h := BitVec.ofNat 8 ((s.hl.toNat + (r16Get r s).toNat) / 256)
    l := BitVec.ofNat 8 (s.hl.toNat + (r16Get r s).toNat)
    fn := false
    fh := decide (4095 < s.hl.toNat % 4096 + (r16Get r s).toNat % 4096)
    fc := decide (65535 < s.hl.toNat + (r16Get r s).toNat)
    cost := cost s .addHlR16 }

/-- R202, R203: the 16-bit increments and decrements wrap and write no flag. -/
def Obligations.IncAndDecPair : Prop :=
  ∀ (r : R16) (s : State),
    (∃ t, exec (.incR16 r) s = .next t ∧ (r16Get r t).toNat = ((r16Get r s).toNat + 1) % 65536 ∧
      t = { (r16Set r (r16Get r t) s) with cost := cost s .incR16 }) ∧
    (∃ t, exec (.decR16 r) s = .next t ∧ (r16Get r t).toNat = ((r16Get r s).toNat + 65535) % 65536 ∧
      t = { (r16Set r (r16Get r t) s) with cost := cost s .decR16 })

/-- R204 to R206: the stack-pointer add, at both settings of `ADDSP_WIDE_OVERFLOW`. -/
def Obligations.StackPointerAdd : Prop :=
  ∀ (e : Byte) (s : State),
    let res := BitVec.ofInt 16 ((s.sp.toNat : Int) + e.toInt)
    let wide := s.cfg.addspWideOverflow ∧
      65535 < s.sp.toNat + (if e.toNat < 128 then e.toNat else e.toNat + 65280)
    let fh := decide (15 < s.sp.toNat % 16 + e.toNat % 16 ∨ wide)
    let fc := decide (255 < s.sp.toNat % 256 + e.toNat ∨ wide)
    exec (.addSpE8 e) s = .next { s with
      sp := res, fz := false, fn := false, fh := fh, fc := fc, cost := cost s .addSpE8 } ∧
    exec (.ldHlSpE8 e) s = .next { s with
      h := hiByte res, l := loByte res, fz := false, fn := false, fh := fh, fc := fc,
      cost := cost s .ldHlSpE8 }

/-! ## Rotates, shifts, bits -/

/-- R220 to R224: the accumulator rotates, in numbers; Zero is cleared whatever the result. -/
def Obligations.AccumulatorRotates : Prop :=
  ∀ s : State,
    exec .rlca s = .next { s with
      a := BitVec.ofNat 8 (2 * s.a.toNat + s.a.toNat / 128), fz := false, fn := false, fh := false,
      fc := decide (128 ≤ s.a.toNat), cost := cost s .rlca } ∧
    exec .rrca s = .next { s with
      a := BitVec.ofNat 8 (s.a.toNat / 2 + 128 * (s.a.toNat % 2)), fz := false, fn := false, fh := false,
      fc := decide (s.a.toNat % 2 = 1), cost := cost s .rrca } ∧
    exec .rla s = .next { s with
      a := BitVec.ofNat 8 (2 * s.a.toNat + s.fc.toNat), fz := false, fn := false, fh := false,
      fc := decide (128 ≤ s.a.toNat), cost := cost s .rla } ∧
    exec .rra s = .next { s with
      a := BitVec.ofNat 8 (s.a.toNat / 2 + 128 * s.fc.toNat), fz := false, fn := false, fh := false,
      fc := decide (s.a.toNat % 2 = 1), cost := cost s .rra }

/-- R220, R229 to R237: the prefixed rotates, shifts and `SWAP`, in numbers: the result goes back to
the operand (the byte at HL for `[HL]`) and Zero is computed. -/
def Obligations.PrefixedRotatesAndShifts : Prop :=
  ∀ (r : R8) (s : State), CanWrite r s →
    let v := (r8Value r s).toNat
    let after (row : Row) (res : Nat) (c : Bool) : State :=
      { (r8Set r (BitVec.ofNat 8 res) s) with
        fz := decide (res % 256 = 0), fn := false, fh := false, fc := c, cost := costR8 s row r }
    exec (.rlcR8 r) s = .next (after .rlcR8 (2 * v + v / 128) (decide (128 ≤ v))) ∧
    exec (.rrcR8 r) s = .next (after .rrcR8 (v / 2 + 128 * (v % 2)) (decide (v % 2 = 1))) ∧
    exec (.rlR8 r) s = .next (after .rlR8 (2 * v + s.fc.toNat) (decide (128 ≤ v))) ∧
    exec (.rrR8 r) s = .next (after .rrR8 (v / 2 + 128 * s.fc.toNat) (decide (v % 2 = 1))) ∧
    exec (.slaR8 r) s = .next (after .slaR8 (2 * v) (decide (128 ≤ v))) ∧
    exec (.sraR8 r) s = .next (after .sraR8 (v / 2 + 128 * (v / 128)) (decide (v % 2 = 1))) ∧
    exec (.swapR8 r) s = .next (after .swapR8 (16 * v + v / 16) false) ∧
    exec (.srlR8 r) s = .next (after .srlR8 (v / 2) (decide (v % 2 = 1)))

/-- R238 to R240: `BIT` tests a bit and writes nothing back, `RES` and `SET` write one bit and no
flag. -/
def Obligations.BitInstructions : Prop :=
  (∀ (u : Fin 8) (r : R8) (s : State), CanRead r s →
    exec (.bitU3R8 u r) s = .next { s with
      fz := decide ((r8Value r s).toNat / 2 ^ u.val % 2 = 0), fn := false, fh := true,
      cost := costR8 s .bitU3R8 r }) ∧
  (∀ (u : Fin 8) (r : R8) (s : State), CanWrite r s →
    ∃ v w : Byte,
      exec (.resU3R8 u r) s = .next { (r8Set r v s) with cost := costR8 s .resU3R8 r } ∧
      exec (.setU3R8 u r) s = .next { (r8Set r w s) with cost := costR8 s .setU3R8 r } ∧
      (∀ k < 8, v.getLsbD k = (decide (k ≠ u.val) && (r8Value r s).getLsbD k)) ∧
      (∀ k < 8, w.getLsbD k = (decide (k = u.val) || (r8Value r s).getLsbD k)))

/-! ## Control flow -/

/-- R260 to R263: the absolute jumps; each condition reads one flag. -/
def Obligations.AbsoluteJumps : Prop :=
  ∀ (n : Word) (s : State),
    let jump (row : Row) (cond : Bool) : State :=
      { s with pc := if cond then n else s.pc, cost := costCc s row cond }
    exec (.jpN16 n) s = .next { s with pc := n, cost := cost s .jpN16 } ∧
    exec (.jpCcN16 .nz n) s = .next (jump .jpCcN16 (!s.fz)) ∧
    exec (.jpCcN16 .z n) s = .next (jump .jpCcN16 s.fz) ∧
    exec (.jpCcN16 .nc n) s = .next (jump .jpCcN16 (!s.fc)) ∧
    exec (.jpCcN16 .c n) s = .next (jump .jpCcN16 s.fc) ∧
    exec .jpHl s = .next { s with
      pc := BitVec.ofNat 16 (256 * s.h.toNat + s.l.toNat), cost := cost s .jpHl }

/-- R260, R264, R265: the relative jumps; `e8` is signed and the sum wraps. -/
def Obligations.RelativeJumps : Prop :=
  ∀ (e : Byte) (s : State),
    let target := BitVec.ofInt 16 ((s.pc.toNat : Int) + e.toInt)
    let jump (cond : Bool) : State :=
      { s with pc := if cond then target else s.pc, cost := costCc s .jrCc cond }
    exec (.jr e) s = .next { s with pc := target, cost := cost s .jr } ∧
    exec (.jrCc .nz e) s = .next (jump (!s.fz)) ∧
    exec (.jrCc .z e) s = .next (jump s.fz) ∧
    exec (.jrCc .nc e) s = .next (jump (!s.fc)) ∧
    exec (.jrCc .c e) s = .next (jump s.fc)

/-- R266, R267, R273, R340: the calls push PC, high byte at the higher address, and jump; a `CALL cc`
that is not taken changes nothing but its cost. -/
def Obligations.CallsPushReturnAddress : Prop :=
  ∀ (n : Word) (tgt : Fin 8) (cc : Cond) (s : State),
    (writable (s.sp - 1) = true → writable (s.sp - 2) = true →
      let pushed := (s.poke (s.sp - 1) (hiByte s.pc)).poke (s.sp - 2) (loByte s.pc)
      exec (.callN16 n) s = .next { pushed with sp := s.sp - 2, pc := n, cost := cost s .callN16 } ∧
      exec (.rst tgt) s = .next { pushed with
        sp := s.sp - 2, pc := BitVec.ofNat 16 (8 * tgt.val), cost := cost s .rst } ∧
      (condHolds cc s = true → exec (.callCcN16 cc n) s = .next { pushed with
        sp := s.sp - 2, pc := n, cost := costCc s .callCcN16 true })) ∧
    (condHolds cc s = false →
      exec (.callCcN16 cc n) s = .next { s with cost := costCc s .callCcN16 false })

/-- R268 to R270, R340: the returns pop PC, low byte at the lower address; `RETI` sets `ime` at once
and leaves the latch. -/
def Obligations.ReturnsPopPc : Prop :=
  ∀ (cc : Cond) (s : State),
    (readable s.sp = true → readable (s.sp + 1) = true →
      let target := BitVec.ofNat 16 (256 * (s.peek (s.sp + 1)).toNat + (s.peek s.sp).toNat)
      exec .ret s = .next { s with pc := target, sp := s.sp + 2, cost := cost s .ret } ∧
      exec .reti s = .next { s with
        pc := target, sp := s.sp + 2, ime := true, cost := cost s .reti } ∧
      (condHolds cc s = true → exec (.retCc cc) s = .next { s with
        pc := target, sp := s.sp + 2, cost := costCc s .retCc true })) ∧
    (condHolds cc s = false →
      exec (.retCc cc) s = .next { s with cost := costCc s .retCc false })

/-! ## System instructions -/

/-- R290 to R293: `NOP`, `DI`, `EI`, `HALT`; `EI` does not write `ime` itself. -/
def Obligations.SystemInstructions : Prop :=
  ∀ s : State,
    exec .nop s = .next { s with cost := cost s .nop } ∧
    exec .di s = .next { s with ime := false, imePending := false, cost := cost s .di } ∧
    exec .ei s = .next { s with imePending := true, cost := cost s .ei } ∧
    exec .halt s = .next { s with halted := true, cost := cost s .halt }

/-- R294, R404: a step at the two bytes of `STOP` latches `Unimplemented` with the address of the 0x10
byte, PC past both; the timing unit is not stepped.
A raise as a next state with `fault` set is the model's reading (log 1). -/
def Obligations.StopRaisesUnimplemented : Prop :=
  (∀ (n : Byte) (s : State), exec (.stop n) s =
    .next { s with fault := some (.unimplemented (.single 0x10) (s.pc - 2)) }) ∧
  (∀ s : State, Fetches s → readable s.pc = true → readable (s.pc + 1) = true → s.peek s.pc = 0x10 →
    step s = .next { s with
      pc := s.pc + 2, fault := some (.unimplemented (.single 0x10) s.pc) })

/-- R111, R126, R295: the prefix byte alone fetches the next byte and is the prefixed instruction that
byte selects, one of the eleven rows of R126; it completes where that instruction's accesses are
allowed.
A constructor for the prefix row is the model's choice (log 9). -/
def Obligations.PrefixRunsSecondTable : Prop :=
  ∀ (s : State) (i : Instr), readable s.pc = true → i.wellFormed = true →
    encode i = [0xCB, s.peek s.pc] →
    let s1 : State := { s with pc := s.pc + 1 }
    ∃ t, exec .prefixCb s = .next t ∧ exec i s1 = .next t ∧
      ((∀ a ∈ loads i s1, readable a = true) → (∀ a ∈ stores i s1, writable a = true) →
        t.fault = s.fault)

/-! ## Loads -/

/-- R310, R311: `LD r8,r8` reads the source before it writes the destination, and `LD r8,n8`; no
flag changes. -/
def Obligations.ByteLoads : Prop :=
  ∀ (dst src : R8) (n : Byte) (s : State), CanWrite dst s →
    (CanRead src s → (dst ≠ .hlInd ∨ src ≠ .hlInd) →
      exec (.ldR8R8 dst src) s = .next { (r8Set dst (r8Value src s) s) with
        cost := cyclesOf s.cfg
          (.row .ldR8R8 (if dst = .hlInd ∨ src = .hlInd then .hl else .plain)) }) ∧
    exec (.ldR8N8 dst n) s = .next { (r8Set dst n s) with cost := costR8 s .ldR8N8 dst }

/-- R312, R313, R117: the address-form loads, HL moved after the access. -/
def Obligations.AddressFormLoads : Prop :=
  ∀ s : State,
    (writable s.bc = true → exec (.ldR16MemA .bc) s =
      .next { (s.poke s.bc s.a) with cost := cost s .ldR16MemA }) ∧
    (writable s.de = true → exec (.ldR16MemA .de) s =
      .next { (s.poke s.de s.a) with cost := cost s .ldR16MemA }) ∧
    (writable s.hl = true →
      exec (.ldR16MemA .hlInc) s = .next { (s.poke s.hl s.a) with
        h := hiByte (s.hl + 1), l := loByte (s.hl + 1), cost := cost s .ldR16MemA } ∧
      exec (.ldR16MemA .hlDec) s = .next { (s.poke s.hl s.a) with
        h := hiByte (s.hl - 1), l := loByte (s.hl - 1), cost := cost s .ldR16MemA }) ∧
    (readable s.bc = true → exec (.ldAR16Mem .bc) s =
      .next { s with a := s.peek s.bc, cost := cost s .ldAR16Mem }) ∧
    (readable s.de = true → exec (.ldAR16Mem .de) s =
      .next { s with a := s.peek s.de, cost := cost s .ldAR16Mem }) ∧
    (readable s.hl = true →
      exec (.ldAR16Mem .hlInc) s = .next { s with
        a := s.peek s.hl, h := hiByte (s.hl + 1), l := loByte (s.hl + 1),
        cost := cost s .ldAR16Mem } ∧
      exec (.ldAR16Mem .hlDec) s = .next { s with
        a := s.peek s.hl, h := hiByte (s.hl - 1), l := loByte (s.hl - 1),
        cost := cost s .ldAR16Mem })

/-- R314 to R319: the absolute and high-page loads; the `LDH` forms never fault on their data. -/
def Obligations.AbsoluteAndHighPageLoads : Prop :=
  ∀ (n : Word) (k : Byte) (s : State),
    (writable n = true → exec (.ldN16A n) s =
      .next { (s.poke n s.a) with cost := cost s .ldN16A }) ∧
    (readable n = true → exec (.ldAN16 n) s =
      .next { s with a := s.peek n, cost := cost s .ldAN16 }) ∧
    exec (.ldhN8A k) s = .next { (s.poke (BitVec.ofNat 16 (0xFF00 + k.toNat)) s.a) with
      cost := cost s .ldhN8A } ∧
    exec (.ldhAN8 k) s = .next { s with
      a := s.peek (BitVec.ofNat 16 (0xFF00 + k.toNat)), cost := cost s .ldhAN8 } ∧
    exec .ldhCA s = .next { (s.poke (BitVec.ofNat 16 (0xFF00 + s.c.toNat)) s.a) with
      cost := cost s .ldhCA } ∧
    exec .ldhAC s = .next { s with
      a := s.peek (BitVec.ofNat 16 (0xFF00 + s.c.toNat)), cost := cost s .ldhAC }

/-- R341 to R343: the 16-bit loads; `LD [n16],SP` stores the low byte first, and if the second store
raises the first has happened.
A raise as a next state with `fault` set is the model's reading (log 1). -/
def Obligations.WordLoads : Prop :=
  ∀ (n : Word) (s : State),
    exec (.ldR16N16 .bc n) s = .next { s with
      b := hiByte n, c := loByte n, cost := cost s .ldR16N16 } ∧
    exec (.ldR16N16 .de n) s = .next { s with
      d := hiByte n, e := loByte n, cost := cost s .ldR16N16 } ∧
    exec (.ldR16N16 .hl n) s = .next { s with
      h := hiByte n, l := loByte n, cost := cost s .ldR16N16 } ∧
    exec (.ldR16N16 .sp n) s = .next { s with sp := n, cost := cost s .ldR16N16 } ∧
    exec .ldSpHl s = .next { s with
      sp := BitVec.ofNat 16 (256 * s.h.toNat + s.l.toNat), cost := cost s .ldSpHl } ∧
    (writable n = true → writable (n + 1) = true → exec (.ldN16Sp n) s =
      .next { ((s.poke n (loByte s.sp)).poke (n + 1) (hiByte s.sp)) with cost := cost s .ldN16Sp }) ∧
    (writable n = true → writable (n + 1) = false → exec (.ldN16Sp n) s =
      .next { (s.poke n (loByte s.sp)) with
        fault := some (.illegalMemoryAccess (n + 1) .write) })

/-- R346, R347, R27, R340: `PUSH` and `POP`. `PUSH AF` stores F with a zero low nibble, and `POP AF`
drops bits 3 to 0 of the popped byte. -/
def Obligations.PushAndPop : Prop :=
  ∀ s : State,
    (writable (s.sp - 1) = true → writable (s.sp - 2) = true →
      let pushed (hi lo : Byte) : State :=
        { ((s.poke (s.sp - 1) hi).poke (s.sp - 2) lo) with sp := s.sp - 2, cost := cost s .push }
      exec (.push .bc) s = .next (pushed s.b s.c) ∧
      exec (.push .de) s = .next (pushed s.d s.e) ∧
      exec (.push .hl) s = .next (pushed s.h s.l) ∧
      exec (.push .af) s = .next (pushed s.a (BitVec.ofNat 8
        (0x80 * s.fz.toNat + 0x40 * s.fn.toNat + 0x20 * s.fh.toNat + 0x10 * s.fc.toNat)))) ∧
    (readable s.sp = true → readable (s.sp + 1) = true →
      let popped : State := { s with sp := s.sp + 2, cost := cost s .pop }
      let hi := s.peek (s.sp + 1)
      let lo := s.peek s.sp
      exec (.pop .bc) s = .next { popped with b := hi, c := lo } ∧
      exec (.pop .de) s = .next { popped with d := hi, e := lo } ∧
      exec (.pop .hl) s = .next { popped with h := hi, l := lo } ∧
      exec (.pop .af) s = .next { popped with
        a := hi
        fz := decide (lo.toNat / 128 % 2 = 1)
        fn := decide (lo.toNat / 64 % 2 = 1)
        fh := decide (lo.toNat / 32 % 2 = 1)
        fc := decide (lo.toNat / 16 % 2 = 1) })

/-- R28, R340: popping what was pushed restores the pair and SP, for every pair, AF among them. -/
def Obligations.PopAfterPushRestores : Prop :=
  ∀ (r : R16Stk) (s : State), writable (s.sp - 1) = true → writable (s.sp - 2) = true →
    ∃ t u, exec (.push r) s = .next t ∧ exec (.pop r) t = .next u ∧
      u = { s with mem := t.mem, cost := cost s .pop } ∧
      t.peek (s.sp - 1) = hiByte (stkGet r s) ∧ t.peek (s.sp - 2) = loByte (stkGet r s) ∧
      (∀ a, a ≠ s.sp - 1 → a ≠ s.sp - 2 → t.peek a = s.peek a)

/-! ## Conditions raised by data accesses -/

/-- R97, R159, R241, R310, R313, R315, R402, R412: a data read in a prohibited region, at HL, BC, DE or
the immediate address, latches the condition and changes nothing else: no register, no flag, no byte.
A raise as a next state with `fault` set is the model's reading (log 1). -/
def Obligations.UnreadableOperandRaises : Prop :=
  ∀ (s : State) (u : Fin 8) (dst : R8) (n a : Word) (i : Instr),
    (i ∈ [.addAR8 .hlInd, .adcAR8 .hlInd, .subAR8 .hlInd, .sbcAR8 .hlInd, .andAR8 .hlInd,
        .xorAR8 .hlInd, .orAR8 .hlInd, .cpAR8 .hlInd, .incR8 .hlInd, .decR8 .hlInd, .rlcR8 .hlInd,
        .rrcR8 .hlInd, .rlR8 .hlInd, .rrR8 .hlInd, .slaR8 .hlInd, .sraR8 .hlInd, .swapR8 .hlInd,
        .srlR8 .hlInd, .bitU3R8 u .hlInd, .resU3R8 u .hlInd, .setU3R8 u .hlInd, .ldR8R8 dst .hlInd,
        .ldAR16Mem .hlInc, .ldAR16Mem .hlDec] ∧ a = s.hl ∨
      (i, a) ∈ [(.ldAR16Mem .bc, s.bc), (.ldAR16Mem .de, s.de), (.ldAN16 n, n)]) →
    readable a = false →
    exec i s = .next { s with fault := some (.illegalMemoryAccess a .read) }

/-- R63, R64, R97, R180, R241, R310 to R312, R314, R342, R402, R412: a data write that the bus refuses
latches the condition and changes nothing else: the flags are not written, HL is not moved, nothing is
stored. The forms that read the operand first do so where HL is readable (elsewhere
`UnreadableOperandRaises` is about them); the forms that only store do so at any refused address, in
ROM or a prohibited region. For `LD [n16],SP` the address is that of the first byte.
A raise as a next state with `fault` set is the model's reading (log 1). -/
def Obligations.UnwritableOperandRaises : Prop :=
  ∀ (s : State) (u : Fin 8) (src : R8) (k : Byte) (n a : Word) (i : Instr),
    (i ∈ [.incR8 .hlInd, .decR8 .hlInd, .rlcR8 .hlInd, .rrcR8 .hlInd, .rlR8 .hlInd, .rrR8 .hlInd,
        .slaR8 .hlInd, .sraR8 .hlInd, .swapR8 .hlInd, .srlR8 .hlInd, .resU3R8 u .hlInd,
        .setU3R8 u .hlInd] ∧ a = s.hl ∧ readable a = true ∨
      src ≠ .hlInd ∧ i = .ldR8R8 .hlInd src ∧ a = s.hl ∨
      (i, a) ∈ [(.ldR8N8 .hlInd k, s.hl), (.ldR16MemA .hlInc, s.hl), (.ldR16MemA .hlDec, s.hl),
        (.ldR16MemA .bc, s.bc), (.ldR16MemA .de, s.de), (.ldN16A n, n), (.ldN16Sp n, n)]) →
    writable a = false →
    exec i s = .next { s with fault := some (.illegalMemoryAccess a .write) }

/-- R97, R267, R269, R340, R412: a stack access that raises leaves SP moved as far as the transactions
went, and the byte written before it stays; PC, `ime` and the destination are not written. `CALL cc`
and `RET cc` access the stack where their condition holds.
A raise as a next state with `fault` set is the model's reading (log 1). -/
def Obligations.StackFaultsKeepPartialEffects : Prop :=
  ∀ (s : State) (r : R16Stk) (n : Word) (tgt : Fin 8) (cc : Cond),
    (∀ (i : Instr) (v : Word),
      ((i, v) ∈ [(.push r, stkGet r s), (.callN16 n, s.pc), (.rst tgt, s.pc)] ∨
        condHolds cc s = true ∧ i = .callCcN16 cc n ∧ v = s.pc) →
      (writable (s.sp - 1) = false → exec i s = .next { s with
        sp := s.sp - 1, fault := some (.illegalMemoryAccess (s.sp - 1) .write) }) ∧
      (writable (s.sp - 1) = true → writable (s.sp - 2) = false →
        exec i s = .next { (s.poke (s.sp - 1) (hiByte v)) with
          sp := s.sp - 2, fault := some (.illegalMemoryAccess (s.sp - 2) .write) })) ∧
    (∀ i : Instr, (i ∈ [.pop r, .ret, .reti] ∨ condHolds cc s = true ∧ i = .retCc cc) →
      (readable s.sp = false → exec i s = .next { s with
        fault := some (.illegalMemoryAccess s.sp .read) }) ∧
      (readable s.sp = true → readable (s.sp + 1) = false → exec i s = .next { s with
        sp := s.sp + 1, fault := some (.illegalMemoryAccess (s.sp + 1) .read) }))

/-- R410: the rule of an instruction other than `STOP` raises nothing but an illegal access at one of
the addresses R74 gives it, and nothing at all when the bus allows all of them.
A raise as a next state with `fault` set is the model's reading (log 1). -/
def Obligations.InstructionsRaiseOnlyTheirConditions : Prop :=
  ∀ (i : Instr) (s t : State), i.wellFormed = true → (∀ n, i ≠ .stop n) → exec i s = .next t →
    t.fault = s.fault ∨
    (∃ a ∈ loads i s, readable a = false ∧ t.fault = some (.illegalMemoryAccess a .read)) ∨
    (∃ a ∈ stores i s, writable a = false ∧ t.fault = some (.illegalMemoryAccess a .write))

/-! ## The bus -/

/-- R61, R62, R63, R64: the twelve regions by their address ranges, and what each allows. -/
def Obligations.AddressMap : Prop :=
  ∀ a : Word,
    (regionOf a = .romBank0 ↔ a.toNat ≤ 0x3FFF) ∧
    (regionOf a = .romBank1 ↔ 0x4000 ≤ a.toNat ∧ a.toNat ≤ 0x7FFF) ∧
    (regionOf a = .videoRam ↔ 0x8000 ≤ a.toNat ∧ a.toNat ≤ 0x9FFF) ∧
    (regionOf a = .externalRam ↔ 0xA000 ≤ a.toNat ∧ a.toNat ≤ 0xBFFF) ∧
    (regionOf a = .workRam0 ↔ 0xC000 ≤ a.toNat ∧ a.toNat ≤ 0xCFFF) ∧
    (regionOf a = .workRam1 ↔ 0xD000 ≤ a.toNat ∧ a.toNat ≤ 0xDFFF) ∧
    (regionOf a = .echo ↔ 0xE000 ≤ a.toNat ∧ a.toNat ≤ 0xFDFF) ∧
    (regionOf a = .oam ↔ 0xFE00 ≤ a.toNat ∧ a.toNat ≤ 0xFE9F) ∧
    (regionOf a = .unusable ↔ 0xFEA0 ≤ a.toNat ∧ a.toNat ≤ 0xFEFF) ∧
    (regionOf a = .ioRegisters ↔ 0xFF00 ≤ a.toNat ∧ a.toNat ≤ 0xFF7F) ∧
    (regionOf a = .highRam ↔ 0xFF80 ≤ a.toNat ∧ a.toNat ≤ 0xFFFE) ∧
    (regionOf a = .interruptEnable ↔ a.toNat = 0xFFFF) ∧
    regionOffset a + (regionOf a).first = a.toNat ∧
    (readable a = false ↔
      (0xE000 ≤ a.toNat ∧ a.toNat ≤ 0xFDFF) ∨ (0xFEA0 ≤ a.toNat ∧ a.toNat ≤ 0xFEFF)) ∧
    (writable a = false ↔ a.toNat ≤ 0x7FFF ∨
      (0xE000 ≤ a.toNat ∧ a.toNat ≤ 0xFDFF) ∨ (0xFEA0 ≤ a.toNat ∧ a.toNat ≤ 0xFEFF))

/-- R76, R77, R402: the two bus operations: a value or a stored byte, or the condition with the
address and the direction and nothing else. -/
def Obligations.BusReadAndWrite : Prop :=
  ∀ (a : Word) (v : Byte) (s : State),
    busRead a s = (if readable a then .ok (s.peek a) s
      else .raised { s with fault := some (.illegalMemoryAccess a .read) }) ∧
    (writable a = true → ∃ t, busWrite a v s = .ok () t ∧ t.peek a = v ∧
      (∀ x, x ≠ a → t.peek x = s.peek x) ∧ t = { s with mem := t.mem }) ∧
    (writable a = false → busWrite a v s =
      .raised { s with fault := some (.illegalMemoryAccess a .write) })

/-- R78, R79: a two-byte write puts the low byte at the lower address, the second address modulo
65536, and a two-byte read gives the value back. -/
def Obligations.TwoByteAccessLittleEndian : Prop :=
  ∀ (a v : Word) (s : State), writable a = true → writable (a + 1) = true →
    ∃ t, busWrite2 a v s = .ok () t ∧ busRead2 a t = .ok v t ∧
      (t.peek a).toNat = v.toNat % 256 ∧ (t.peek (a + 1)).toNat = v.toNat / 256 ∧
      (∀ x, x ≠ a → x ≠ a + 1 → t.peek x = s.peek x) ∧ t = { s with mem := t.mem }

/-! ## Frames -/

/-- R73, R74: every byte outside the addresses an instruction stores to reads as before, and a form
that stores nothing leaves all of memory. (`prefixCb` is the prefixed instruction by
`PrefixRunsSecondTable`.) -/
def Obligations.MemoryFrame : Prop :=
  ∀ (i : Instr) (s t : State), i ≠ .prefixCb → exec i s = .next t →
    ∀ a : Word, a ∉ stores i s → t.peek a = s.peek a

/-- R20, R21, R30: every register but an instruction's destination, and those its addressing mode
updates, is unchanged. -/
def Obligations.RegisterFrame : Prop :=
  ∀ (i : Instr) (s t : State), i ≠ .prefixCb → exec i s = .next t →
    ∀ r : RegName, r ∉ dests i s → regVal r t = regVal r s

/-- R25, R186, R242: every flag an instruction's rule does not name is exactly as it was. -/
def Obligations.FlagFrame : Prop :=
  ∀ (i : Instr) (s t : State), i ≠ .prefixCb → exec i s = .next t →
    ∀ f : FlagName, f ∉ flagsWritten i → flagVal f t = flagVal f s

/-- R29, R31 to R35, R421: only `DI`, `EI` and `RETI` write `ime` or its latch, only `HALT` writes
`halted`, only control transfers write PC, and no instruction's rule touches the timing unit, the
event trace or the parameters. -/
def Obligations.ControlStateFrame : Prop :=
  ∀ (i : Instr) (s t : State), i ≠ .prefixCb → exec i s = .next t →
    (i ≠ .di → i ≠ .reti → t.ime = s.ime) ∧
    (i ≠ .di → i ≠ .ei → t.imePending = s.imePending) ∧
    (i ≠ .halt → t.halted = s.halted) ∧
    (transfersControl i = false → t.pc = s.pc) ∧
    t.dots = s.dots ∧ t.ly = s.ly ∧ t.events = s.events ∧ t.cfg = s.cfg

/-! ## The step -/

/-- R111, R446: when the bytes at PC decode to an instruction, the step is that instruction's rule
with PC past its bytes; then, unless it raised, the latch step with the latch as it stood before the
fetch, and the timing unit by the cost; an instruction outside the admitted set raises instead, with
its opcode byte (0xCB and the second byte where it is prefixed, R404) and the address of its first byte.
A raise as a next state with `fault` set is the model's reading (log 1). -/
def Obligations.StepRunsDecodedInstruction : Prop :=
  ∀ (s : State) (i : Instr) (rest : List Byte), Fetches s →
    decode [s.peek s.pc, s.peek (s.pc + 1), s.peek (s.pc + 2)] = .ok (i, rest) →
    (∀ k < (encode i).length, readable (pcPlus s k) = true) →
    let s1 : State := { s with pc := pcPlus s (encode i).length }
    (admitted s.cfg i = false → step s = .next { s1 with
      fault := some (.unimplemented
        (if s.peek s.pc = 0xCB then .prefixed (s.peek (s.pc + 1)) else .single (s.peek s.pc)) s.pc) }) ∧
    (admitted s.cfg i = true → ∀ u, exec i s1 = .next u →
      (u.fault ≠ none → step s = .next u) ∧
      (u.fault = none → step s = .next (ppuStep u.cost (
        if s.imePending && u.imePending then { u with ime := true, imePending := false } else u))))

/-- R89, R127, R401, R411: the conditions of the fetch, in their order: a byte that cannot be read
leaves PC at it, and an illegal opcode is reported with its address, PC one past it.
A raise as a next state with `fault` set is the model's reading (log 1). -/
def Obligations.FetchConditions : Prop :=
  ∀ s : State, Fetches s →
    (readable s.pc = false → step s = .next { s with
      fault := some (.illegalMemoryAccess s.pc .read) }) ∧
    (readable s.pc = true → firstMatch templates (s.peek s.pc) = none → step s = .next { s with
      pc := s.pc + 1, fault := some (.illegalOpcode (s.peek s.pc) s.pc) }) ∧
    (∀ (row : Row) (k : Nat), firstMatch templates (s.peek s.pc) = some row → 0 < k →
      k ≤ row.format.tailLength → (∀ j < k, readable (pcPlus s j) = true) →
      readable (pcPlus s k) = false → step s = .next { s with
        pc := pcPlus s k, fault := some (.illegalMemoryAccess (pcPlus s k) .read) })

/-- R34, R412, R446: with `fault` set no step is possible, and the answer names the condition; and the
run from that state ends at that very state, as a failed run.
A raise as a next state with `fault` set is the model's reading (log 1). Where a run ends is the model's
convention (log 14), which R447 only suggests: the two run clauses formalise no rule. -/
def Obligations.FaultStopsTheMachine : Prop :=
  ∀ (s : State) (f : Fault), s.fault = some f → step s = .fault f ∧
    RunFails s s ∧ ∀ e, RunEnds s e → e = s

/-- R433, R437: a halted core fetches nothing, and the timing unit is stepped by the cost of one idle
call; that changes the timing unit's state, its byte and the event trace, and no register, flag or
other byte. So where the run of a default core ends without a condition, it ends halted, and nothing
the CPU does can change any more, however many steps follow.
`cost` is the model's own field (log 6). Where a run ends is the model's convention (log 14), which R447
only suggests: the second clause rests on it and formalises no rule. -/
def Obligations.HaltedStepOnlyMovesTheTimingUnit : Prop :=
  (∀ s : State, s.fault = none → s.halted = true →
    (s.cfg.intDispatch = false ∨ s.pendingEnabled = 0) →
    let c := cyclesOf s.cfg .haltIdle
    let t := ppuStep c { s with cost := c }
    step s = .next t ∧
      t = { s with dots := t.dots, ly := t.ly, mem := t.mem, events := t.events, cost := c } ∧
      t.dots = (s.dots + 4 * c) % 456 ∧
      (s.dots + 4 * c < 456 → t.ly = s.ly ∧ t.mem = s.mem ∧ t.events = s.events) ∧
      (∀ a, a ≠ lyAddr s.cfg → (s.cfg.intDispatch = true → a ≠ ifAddr) → t.peek a = s.peek a)) ∧
  (∀ (s e : State) (k : Nat), s.cfg.intDispatch = false → RunCompletes s e →
    e.halted = true ∧ ∃ t : State, core.run k e = .next t ∧
      t = { e with dots := t.dots, ly := t.ly, mem := t.mem, events := t.events, cost := t.cost } ∧
      (∀ a, a ≠ lyAddr s.cfg → t.peek a = e.peek a))

/-- R423, R477: the enable is delayed by one instruction. With the latch set, the end of the next
instruction that does not raise turns `ime` on and clears the latch, unless that instruction is `DI`;
with the latch clear, no instruction but `EI` sets it and none but `RETI` turns `ime` on. -/
def Obligations.EnableAfterNextInstruction : Prop :=
  ∀ s t : State, Fetches s → step s = .next t → t.fault = none →
    (s.imePending = true → s.peek s.pc ≠ 0xF3 → t.ime = true ∧ t.imePending = false) ∧
    (s.imePending = false → s.peek s.pc ≠ 0xFB → t.imePending = false) ∧
    (s.imePending = false → s.peek s.pc ≠ 0xD9 → t.ime = true → s.ime = true) ∧
    (s.peek s.pc = 0xF3 → t.ime = false ∧ t.imePending = false)

/-- R39, R42, R63: no step changes a byte of the two ROM banks, or a parameter. -/
def Obligations.RomNeverChanges : Prop :=
  ∀ s t : State, step s = .next t →
    t.cfg = s.cfg ∧ ∀ a : Word, a.toNat ≤ 0x7FFF → t.peek a = s.peek a

/-- R42, R45, R75, R470: the invariant holds at reset, and after every launch of a valid image whose
storage is canonical and holds nothing in the prohibited regions.
The canonical form, and 0 for a byte nothing has written, are the model's choice (log 3); prohibited
addresses in the same list, reading as unlisted, are its reading (log 13); `State.reset` is the machine
with no cartridge (log 4). -/
def Obligations.ResetMeetsInv : Prop :=
  Inv State.reset ∧
  ∀ (logoRef image : List Byte) (L : Launch), ValidImage logoRef image → L.mem.wf = true →
    (∀ a : Word, readable a = false → L.mem.read a.toNat = unlistedByte) →
    ∃ t, launch logoRef image L = .next t ∧ Inv t

/-- R42, R64, R73: every step keeps the invariant, a step that raises among them.
Of the invariant's clauses, the ranges of `dots` and `ly` are R42's, and nothing stored in a prohibited
region is R64's. The canonical form, and 0 for a byte nothing has written, are the model's choice
(log 3); prohibited addresses in the same list, reading as unlisted, are its reading (log 13). -/
def Obligations.StepKeepsInv : Prop :=
  ∀ s t : State, Inv s → step s = .next t → Inv t

/-! ## The Video Timing Unit -/

/-- R437, R440, R443: what a call of `PpuStep` does to the counters, how many frames end in it, and
the closed form after any number of calls from the origin. -/
def Obligations.TimingUnitClosedForm : Prop :=
  (∀ (s : State) (c : Nat), s.ly ≤ 153 →
    (ppuStep c s).dots = (s.dots + 4 * c) % 456 ∧
    (ppuStep c s).ly = (s.ly + (s.dots + 4 * c) / 456) % 154 ∧
    (ppuStep c s).events.count .endOfFrame =
      s.events.count .endOfFrame + (s.ly + (s.dots + 4 * c) / 456) / 154) ∧
  (∀ (s : State) (cs : List Nat), s.dots = 0 → s.ly = 0 →
    (cs.foldl (fun s c => ppuStep c s) s).dots = 4 * cs.sum % 456 ∧
    (cs.foldl (fun s c => ppuStep c s) s).ly = 4 * cs.sum / 456 % 154)

/-- R432, R438, R440, R441: one scanline: the events in order, the counter, the published byte, and no
fault. With `INT_DISPATCH` the advance to line 144 also sets bit 0 of IF. -/
def Obligations.ScanlineAdvance : Prop :=
  ∀ s : State, s.ly ≤ 153 →
    (advanceLine s).ly = (s.ly + 1) % 154 ∧
    (advanceLine s).dots = s.dots ∧
    (advanceLine s).fault = s.fault ∧
    (advanceLine s).peek (lyAddr s.cfg) = BitVec.ofNat 8 ((s.ly + 1) % 154) ∧
    (advanceLine s).events = s.events ++
      (if s.ly ≤ 143 then [.objectSearch s.ly, .pixelTransfer s.ly] else []) ++
      (if s.ly = 153 then [.endOfFrame] else []) ++
      [.publish (BitVec.ofNat 8 ((s.ly + 1) % 154))] ∧
    (ifAddr ≠ lyAddr s.cfg → (advanceLine s).peek ifAddr =
      if s.cfg.intDispatch = true ∧ s.ly = 143 then s.peek ifAddr ||| 1 else s.peek ifAddr)

/-- R37, R86, R437, R438, R441, R442, R445, R478: the timing unit changes its own two values, the trace,
the byte at `LY_ADDR` and, with `INT_DISPATCH`, IF; every register, flag and other byte stays, and once
a line has been advanced the byte at `LY_ADDR` is the line. Short of the end of a line only `dots`
moves; each end of a line that is reached is one `advanceLine` with 456 dots taken off, and short of
the next one that is all. -/
def Obligations.TimingUnitFrame : Prop :=
  ∀ (s : State) (c : Nat),
    ppuStep c s = { s with
      dots := (ppuStep c s).dots, ly := (ppuStep c s).ly, mem := (ppuStep c s).mem,
      events := (ppuStep c s).events } ∧
    (∀ a, a ≠ lyAddr s.cfg → (s.cfg.intDispatch = true → a ≠ ifAddr) →
      (ppuStep c s).peek a = s.peek a) ∧
    (456 ≤ s.dots + 4 * c →
      (ppuStep c s).peek (lyAddr s.cfg) = BitVec.ofNat 8 (ppuStep c s).ly) ∧
    (s.dots + 4 * c < 456 → ppuStep c s = { s with dots := s.dots + 4 * c }) ∧
    (456 ≤ s.dots + 4 * c → s.dots + 4 * c < 912 →
      ppuStep c s = advanceLine { s with dots := s.dots + 4 * c - 456 }) ∧
    (456 ≤ s.dots + 4 * c →
      ppuStep c s = ppuStep 0 (advanceLine { s with dots := s.dots + 4 * c - 456 }))

/-! ## Interrupts and admission -/

/-- R428 to R431: with `INT_DISPATCH`, a pending and enabled source ends the halted state; with `ime`
the lowest such source is taken: `ime` off, its IF bit cleared, PC pushed, PC at its handler, at the
cost of an entry, and no instruction runs; without `ime` the step goes on as if never halted. A stack
write that the bus refuses latches the condition, with `ime` off, the IF bit cleared and SP lowered as
far as the writes went, PC not written and the timing unit not stepped.
That `ime_pending` is left as it was, and that without `ime` the same call goes on to fetch, are the
model's reading (log 12), as is a raise as a next state with `fault` set (log 1). -/
def Obligations.InterruptEntry : Prop :=
  ∀ (s : State) (i : Nat), s.fault = none → s.cfg.intDispatch = true → i < 5 →
    (s.peek ieAddr).getLsbD i = true → (s.peek ifAddr).getLsbD i = true →
    (∀ j < i, ((s.peek ieAddr).getLsbD j && (s.peek ifAddr).getLsbD j) = false) →
    (s.ime = false → step s = step { s with halted := false }) ∧
    (s.ime = true → writable (s.sp - 1) = true → writable (s.sp - 2) = true →
      ∃ u : State, step s = .next (ppuStep u.cost u) ∧
        u = { s with
          halted := false, ime := false, sp := s.sp - 2, pc := BitVec.ofNat 16 (0x40 + 8 * i),
          mem := u.mem, cost := cyclesOf s.cfg .interruptEntry } ∧
        u.peek (s.sp - 1) = hiByte s.pc ∧ u.peek (s.sp - 2) = loByte s.pc ∧
        (∀ a, a ≠ s.sp - 1 → a ≠ s.sp - 2 → a ≠ ifAddr → u.peek a = s.peek a) ∧
        (ifAddr ≠ s.sp - 1 → ifAddr ≠ s.sp - 2 → RequestCleared i s u)) ∧
    (s.ime = true → writable (s.sp - 1) = false →
      ∃ u : State, step s = .next u ∧
        u = { s with
          halted := false, ime := false, sp := s.sp - 1, mem := u.mem,
          fault := some (.illegalMemoryAccess (s.sp - 1) .write) } ∧
        (∀ a, a ≠ ifAddr → u.peek a = s.peek a) ∧ RequestCleared i s u) ∧
    (s.ime = true → writable (s.sp - 1) = true → writable (s.sp - 2) = false →
      ∃ u : State, step s = .next u ∧
        u = { s with
          halted := false, ime := false, sp := s.sp - 2, mem := u.mem,
          fault := some (.illegalMemoryAccess (s.sp - 2) .write) } ∧
        u.peek (s.sp - 1) = hiByte s.pc ∧
        (∀ a, a ≠ s.sp - 1 → a ≠ ifAddr → u.peek a = s.peek a) ∧ RequestCleared i s u)

/-- R134, R404: what `ADMITTED_SET = source_named` refuses is refused at dispatch, by the row alone;
with `full` everything is admitted. -/
def Obligations.AdmittedSet : Prop :=
  ∀ (cfg : Config) (i : Instr),
    (cfg.admittedSet = .full → admitted cfg i = true) ∧
    (cfg.admittedSet = .sourceNamed → (admitted cfg i = true ↔ i.row ∈
      [.jrCc, .addHlR16, .incR16, .decR16, .incR8, .decR8, .daa, .cpl, .ccf, .halt, .addAR8, .adcAR8,
        .subAR8, .sbcAR8, .andAR8, .xorAR8, .orAR8, .cpAR8, .addAN8, .adcAN8, .subAN8, .sbcAN8, .andAN8,
        .xorAN8, .orAN8, .cpAN8, .retCc, .jpCcN16, .callCcN16, .callN16, .addSpE8, .di, .ei, .bitU3R8]))

/-! ## Reset and the cartridge -/

/-- R45, R470: reset, for every launch. The registers and flags the spec leaves unspecified are the
launch's; the values `State.reset` gives them are the model's own choice (log 2) and are not claimed. -/
def Obligations.ResetValues : Prop :=
  (∀ L : Launch,
    let s := State.resetOf L
    s.pc = L.pc ∧ s.sp = L.sp ∧ s.ime = false ∧ s.imePending = false ∧ s.halted = false ∧
    s.fault = none ∧ s.dots = 0 ∧ s.ly = 0 ∧ s.events = [] ∧ s.cfg = L.cfg ∧
    s.peek (lyAddr L.cfg) = 0 ∧
    (∀ a, a ≠ lyAddr L.cfg → s.peek a = L.mem.read a.toNat) ∧
    s.a = L.a ∧ s.b = L.b ∧ s.c = L.c ∧ s.d = L.d ∧ s.e = L.e ∧ s.h = L.h ∧ s.l = L.l ∧
    s.fz = L.fz ∧ s.fn = L.fn ∧ s.fh = L.fh ∧ s.fc = L.fc ∧ s.flagByte.toNat % 16 = 0) ∧
  State.reset.pc = 0x0100 ∧ State.reset.sp = 0xFFFE ∧ lyAddr State.reset.cfg = 0xFF44

/-- R63, R75, R471 to R475: a launch happens exactly for a valid image, whose byte `a` is then read at
address `a`; any other image is `MalformedCartridge` and nothing runs. -/
def Obligations.LaunchNeedsValidImage : Prop :=
  ∀ (logoRef image : List Byte) (L : Launch),
    (ValidImage logoRef image → ∃ t, launch logoRef image L = .next t ∧ t.fault = none ∧
      t.pc = L.pc ∧ (∀ a : Word, a.toNat ≤ 0x7FFF → t.peek a = imageByte image a.toNat) ∧
      (∀ a : Word, 0x8000 ≤ a.toNat → a ≠ lyAddr L.cfg → t.peek a = L.mem.read a.toNat)) ∧
    (¬ ValidImage logoRef image → ∃ d, launch logoRef image L = .fault (.malformedCartridge d)) ∧
    (image.length ≠ 32768 →
      launch logoRef image L = .fault (.malformedCartridge (.length image.length)) ∧
      loadCartridge image L.mem = .error (.malformedCartridge (.length image.length)))

/-! ## The decoder -/

/-- R110 to R130: decoding the bytes of a well-formed instruction gives it back, with every operand,
whatever bytes follow. -/
def Obligations.DecodeOfEncode : Prop :=
  ∀ (i : Instr) (rest : List Byte), i.wellFormed = true → decode (encode i ++ rest) = .ok (i, rest)

/-- R110, R130: what the decoder reads is what the encoder writes: no other bytes decode to an
instruction, and its length is its row's. -/
def Obligations.EncodeOfDecode : Prop :=
  ∀ (bytes rest : List Byte) (i : Instr), decode bytes = .ok (i, rest) →
    encode i ++ rest = bytes ∧ (encode i).length = i.row.format.length ∧
    (i.wellFormed = true ∨ bytes = [0xCB])

/-- R126, R127, R128: exactly eleven first bytes match no template, 0x76 alone matches two and is
`HALT`, and every byte after 0xCB matches exactly one. -/
def Obligations.TemplatesCoverAllBytes : Prop :=
  ∀ op : Byte,
    (firstMatch templates op = none ↔
      op ∈ [0xD3, 0xDB, 0xDD, 0xE3, 0xE4, 0xEB, 0xEC, 0xED, 0xF4, 0xFC, 0xFD]) ∧
    (op ≠ 0x76 → (templates.filter (·.matchesOp op)).length ≤ 1) ∧
    (templates.filter (·.matchesOp 0x76)).map (·.row) = [.halt, .ldR8R8] ∧
    firstMatch templates 0x76 = some .halt ∧
    (templatesCb.filter (·.matchesOp op)).length = 1

/-- R123 to R126: words of each family, written from the templates. -/
def Obligations.FamilyWordsDecode : Prop :=
  decode [0b10000001] = .ok (.addAR8 .c, []) ∧
  decode [0b11111110, 0x40] = .ok (.cpAN8 0x40, []) ∧
  decode [0b00110101] = .ok (.decR8 .hlInd, []) ∧
  decode [0b00111001] = .ok (.addHlR16 .sp, []) ∧
  decode [0b11101000, 0xFB] = .ok (.addSpE8 0xFB, []) ∧
  decode [0b11001011, 0b01011110] = .ok (.bitU3R8 3 .hlInd, []) ∧
  decode [0b11001011, 0b11001011] = .ok (.setU3R8 1 .e, []) ∧
  decode [0b00111000, 0xFC] = .ok (.jrCc .c 0xFC, []) ∧
  decode [0b11000100, 0x34, 0x12] = .ok (.callCcN16 .nz 0x1234, []) ∧
  decode [0b11101111] = .ok (.rst 5, []) ∧
  decode [0b01110110] = .ok (.halt, []) ∧
  decode [0b00010000, 0x00] = .ok (.stop 0, []) ∧
  decode [0b01110000] = .ok (.ldR8R8 .hlInd .b, []) ∧
  decode [0b00110010] = .ok (.ldR16MemA .hlDec, []) ∧
  decode [0b11110000, 0x44] = .ok (.ldhAN8 0x44, []) ∧
  decode [0b00001000, 0x00, 0xC1] = .ok (.ldN16Sp 0xC100, []) ∧
  decode [0b11110001] = .ok (.pop .af, []) ∧
  decode [0b11111011] = .ok (.ei, [])

/-! ## Costs -/

/-- R482, R483, R484: with the default table, an instruction that does not raise costs 1 to 6 cycles,
and every row and case that R483 lists has the cost it lists.
`cost` is the model's own field (log 6). -/
def Obligations.DefaultCosts : Prop :=
  (∀ (i : Instr) (s t : State), s.cfg.cycles = [] → s.fault = none → exec i s = .next t →
    t.fault = none → 1 ≤ t.cost ∧ t.cost ≤ 6) ∧
  (∀ (cfg : Config) (key : CycleKey) (n : Nat), cfg.cycles = [] → (key, n) ∈ listedCosts →
    cyclesOf cfg key = n)

/-! ## The Tile Codec -/

/-- R65, R66, R91 to R93: pixel `p` of a row takes bit `7-p` of both bytes, byte1 the high bit; a
tile's grid is read from its 16 bytes; a write at 0x8000 to 0x97FF changes the one row of the one
tile it belongs to; and a write at any other address changes no tile. -/
def Obligations.TileCodecMapping : Prop :=
  (∀ byte0 byte1 : Byte, (decodeRow byte0 byte1).length = 8 ∧ ∀ p < 8,
    (decodeRow byte0 byte1)[p]? =
      some (2 * (byte1.toNat / 2 ^ (7 - p) % 2) + byte0.toNat / 2 ^ (7 - p) % 2)) ∧
  (∀ (s : State) (k n r : Nat), r < 8 → (tileGrid s k n).length = 8 ∧
    (tileGrid s k n)[r]? = some (decodeRow (s.mem.read (0x8000 + 0x800 * k + 16 * n + 2 * r))
      (s.mem.read (0x8000 + 0x800 * k + 16 * n + 2 * r + 1)))) ∧
  (∀ (s : State) (a : Word) (v : Byte) (block offset k n r : Nat),
    0x8000 ≤ a.toNat → a.toNat ≤ 0x97FF → a.toNat = 0x8000 + 0x800 * block + offset → offset < 0x800 →
    tileBlock a = some (block, offset) ∧ block < 3 ∧
    (k < 3 → n < 128 → r < 8 → (k ≠ block ∨ n ≠ offset / 16 ∨ r ≠ offset % 16 / 2) →
      (tileGrid (s.poke a v) k n)[r]? = (tileGrid s k n)[r]?)) ∧
  (∀ (s : State) (a : Word) (v : Byte) (k n : Nat), (a.toNat < 0x8000 ∨ 0x97FF < a.toNat) →
    tileBlock a = none ∧ (k < 3 → n < 128 → tileGrid (s.poke a v) k n = tileGrid s k n))

end
end

