-- ==== Sys2Proof/Laws/State.lean ====
section
/-! SUPPORT. One lemma per field per named update of State, so that no later proof unfolds one. -/

namespace Sys2Proof.Machine

section

variable (s : State) (x : Fault)

@[simp] theorem State.raise_a : (s.raise x).a = s.a := rfl
@[simp] theorem State.raise_b : (s.raise x).b = s.b := rfl
@[simp] theorem State.raise_c : (s.raise x).c = s.c := rfl
@[simp] theorem State.raise_d : (s.raise x).d = s.d := rfl
@[simp] theorem State.raise_e : (s.raise x).e = s.e := rfl
@[simp] theorem State.raise_h : (s.raise x).h = s.h := rfl
@[simp] theorem State.raise_l : (s.raise x).l = s.l := rfl
@[simp] theorem State.raise_fz : (s.raise x).fz = s.fz := rfl
@[simp] theorem State.raise_fn : (s.raise x).fn = s.fn := rfl
@[simp] theorem State.raise_fh : (s.raise x).fh = s.fh := rfl
@[simp] theorem State.raise_fc : (s.raise x).fc = s.fc := rfl
@[simp] theorem State.raise_sp : (s.raise x).sp = s.sp := rfl
@[simp] theorem State.raise_pc : (s.raise x).pc = s.pc := rfl
@[simp] theorem State.raise_ime : (s.raise x).ime = s.ime := rfl
@[simp] theorem State.raise_imePending : (s.raise x).imePending = s.imePending := rfl
@[simp] theorem State.raise_halted : (s.raise x).halted = s.halted := rfl
@[simp] theorem State.raise_fault : (s.raise x).fault = some x := rfl
@[simp] theorem State.raise_dots : (s.raise x).dots = s.dots := rfl
@[simp] theorem State.raise_ly : (s.raise x).ly = s.ly := rfl
@[simp] theorem State.raise_mem : (s.raise x).mem = s.mem := rfl
@[simp] theorem State.raise_events : (s.raise x).events = s.events := rfl
@[simp] theorem State.raise_cost : (s.raise x).cost = s.cost := rfl
@[simp] theorem State.raise_cfg : (s.raise x).cfg = s.cfg := rfl

end

section

variable (s : State) (x : Word) (v : Byte)

@[simp] theorem State.poke_a : (s.poke x v).a = s.a := rfl
@[simp] theorem State.poke_b : (s.poke x v).b = s.b := rfl
@[simp] theorem State.poke_c : (s.poke x v).c = s.c := rfl
@[simp] theorem State.poke_d : (s.poke x v).d = s.d := rfl
@[simp] theorem State.poke_e : (s.poke x v).e = s.e := rfl
@[simp] theorem State.poke_h : (s.poke x v).h = s.h := rfl
@[simp] theorem State.poke_l : (s.poke x v).l = s.l := rfl
@[simp] theorem State.poke_fz : (s.poke x v).fz = s.fz := rfl
@[simp] theorem State.poke_fn : (s.poke x v).fn = s.fn := rfl
@[simp] theorem State.poke_fh : (s.poke x v).fh = s.fh := rfl
@[simp] theorem State.poke_fc : (s.poke x v).fc = s.fc := rfl
@[simp] theorem State.poke_sp : (s.poke x v).sp = s.sp := rfl
@[simp] theorem State.poke_pc : (s.poke x v).pc = s.pc := rfl
@[simp] theorem State.poke_ime : (s.poke x v).ime = s.ime := rfl
@[simp] theorem State.poke_imePending : (s.poke x v).imePending = s.imePending := rfl
@[simp] theorem State.poke_halted : (s.poke x v).halted = s.halted := rfl
@[simp] theorem State.poke_fault : (s.poke x v).fault = s.fault := rfl
@[simp] theorem State.poke_dots : (s.poke x v).dots = s.dots := rfl
@[simp] theorem State.poke_ly : (s.poke x v).ly = s.ly := rfl
@[simp] theorem State.poke_mem : (s.poke x v).mem = s.mem.write x.toNat v := rfl
@[simp] theorem State.poke_events : (s.poke x v).events = s.events := rfl
@[simp] theorem State.poke_cost : (s.poke x v).cost = s.cost := rfl
@[simp] theorem State.poke_cfg : (s.poke x v).cfg = s.cfg := rfl

end

section

variable (s : State) (r : Row) (k : CostCase)

@[simp] theorem State.charge_a : (s.charge r k).a = s.a := rfl
@[simp] theorem State.charge_b : (s.charge r k).b = s.b := rfl
@[simp] theorem State.charge_c : (s.charge r k).c = s.c := rfl
@[simp] theorem State.charge_d : (s.charge r k).d = s.d := rfl
@[simp] theorem State.charge_e : (s.charge r k).e = s.e := rfl
@[simp] theorem State.charge_h : (s.charge r k).h = s.h := rfl
@[simp] theorem State.charge_l : (s.charge r k).l = s.l := rfl
@[simp] theorem State.charge_fz : (s.charge r k).fz = s.fz := rfl
@[simp] theorem State.charge_fn : (s.charge r k).fn = s.fn := rfl
@[simp] theorem State.charge_fh : (s.charge r k).fh = s.fh := rfl
@[simp] theorem State.charge_fc : (s.charge r k).fc = s.fc := rfl
@[simp] theorem State.charge_sp : (s.charge r k).sp = s.sp := rfl
@[simp] theorem State.charge_pc : (s.charge r k).pc = s.pc := rfl
@[simp] theorem State.charge_ime : (s.charge r k).ime = s.ime := rfl
@[simp] theorem State.charge_imePending : (s.charge r k).imePending = s.imePending := rfl
@[simp] theorem State.charge_halted : (s.charge r k).halted = s.halted := rfl
@[simp] theorem State.charge_fault : (s.charge r k).fault = s.fault := rfl
@[simp] theorem State.charge_dots : (s.charge r k).dots = s.dots := rfl
@[simp] theorem State.charge_ly : (s.charge r k).ly = s.ly := rfl
@[simp] theorem State.charge_mem : (s.charge r k).mem = s.mem := rfl
@[simp] theorem State.charge_events : (s.charge r k).events = s.events := rfl
@[simp] theorem State.charge_cost : (s.charge r k).cost = cyclesOf s.cfg (.row r k) := rfl
@[simp] theorem State.charge_cfg : (s.charge r k).cfg = s.cfg := rfl

end

section

variable (s : State) (z n h c : Bool)

@[simp] theorem State.setFlags_a : (s.setFlags z n h c).a = s.a := rfl
@[simp] theorem State.setFlags_b : (s.setFlags z n h c).b = s.b := rfl
@[simp] theorem State.setFlags_c : (s.setFlags z n h c).c = s.c := rfl
@[simp] theorem State.setFlags_d : (s.setFlags z n h c).d = s.d := rfl
@[simp] theorem State.setFlags_e : (s.setFlags z n h c).e = s.e := rfl
@[simp] theorem State.setFlags_h : (s.setFlags z n h c).h = s.h := rfl
@[simp] theorem State.setFlags_l : (s.setFlags z n h c).l = s.l := rfl
@[simp] theorem State.setFlags_fz : (s.setFlags z n h c).fz = z := rfl
@[simp] theorem State.setFlags_fn : (s.setFlags z n h c).fn = n := rfl
@[simp] theorem State.setFlags_fh : (s.setFlags z n h c).fh = h := rfl
@[simp] theorem State.setFlags_fc : (s.setFlags z n h c).fc = c := rfl
@[simp] theorem State.setFlags_sp : (s.setFlags z n h c).sp = s.sp := rfl
@[simp] theorem State.setFlags_pc : (s.setFlags z n h c).pc = s.pc := rfl
@[simp] theorem State.setFlags_ime : (s.setFlags z n h c).ime = s.ime := rfl
@[simp] theorem State.setFlags_imePending : (s.setFlags z n h c).imePending = s.imePending := rfl
@[simp] theorem State.setFlags_halted : (s.setFlags z n h c).halted = s.halted := rfl
@[simp] theorem State.setFlags_fault : (s.setFlags z n h c).fault = s.fault := rfl
@[simp] theorem State.setFlags_dots : (s.setFlags z n h c).dots = s.dots := rfl
@[simp] theorem State.setFlags_ly : (s.setFlags z n h c).ly = s.ly := rfl
@[simp] theorem State.setFlags_mem : (s.setFlags z n h c).mem = s.mem := rfl
@[simp] theorem State.setFlags_events : (s.setFlags z n h c).events = s.events := rfl
@[simp] theorem State.setFlags_cost : (s.setFlags z n h c).cost = s.cost := rfl
@[simp] theorem State.setFlags_cfg : (s.setFlags z n h c).cfg = s.cfg := rfl

end

section

variable (s : State) (z n h : Bool)

@[simp] theorem State.setZnh_a : (s.setZnh z n h).a = s.a := rfl
@[simp] theorem State.setZnh_b : (s.setZnh z n h).b = s.b := rfl
@[simp] theorem State.setZnh_c : (s.setZnh z n h).c = s.c := rfl
@[simp] theorem State.setZnh_d : (s.setZnh z n h).d = s.d := rfl
@[simp] theorem State.setZnh_e : (s.setZnh z n h).e = s.e := rfl
@[simp] theorem State.setZnh_h : (s.setZnh z n h).h = s.h := rfl
@[simp] theorem State.setZnh_l : (s.setZnh z n h).l = s.l := rfl
@[simp] theorem State.setZnh_fz : (s.setZnh z n h).fz = z := rfl
@[simp] theorem State.setZnh_fn : (s.setZnh z n h).fn = n := rfl
@[simp] theorem State.setZnh_fh : (s.setZnh z n h).fh = h := rfl
@[simp] theorem State.setZnh_fc : (s.setZnh z n h).fc = s.fc := rfl
@[simp] theorem State.setZnh_sp : (s.setZnh z n h).sp = s.sp := rfl
@[simp] theorem State.setZnh_pc : (s.setZnh z n h).pc = s.pc := rfl
@[simp] theorem State.setZnh_ime : (s.setZnh z n h).ime = s.ime := rfl
@[simp] theorem State.setZnh_imePending : (s.setZnh z n h).imePending = s.imePending := rfl
@[simp] theorem State.setZnh_halted : (s.setZnh z n h).halted = s.halted := rfl
@[simp] theorem State.setZnh_fault : (s.setZnh z n h).fault = s.fault := rfl
@[simp] theorem State.setZnh_dots : (s.setZnh z n h).dots = s.dots := rfl
@[simp] theorem State.setZnh_ly : (s.setZnh z n h).ly = s.ly := rfl
@[simp] theorem State.setZnh_mem : (s.setZnh z n h).mem = s.mem := rfl
@[simp] theorem State.setZnh_events : (s.setZnh z n h).events = s.events := rfl
@[simp] theorem State.setZnh_cost : (s.setZnh z n h).cost = s.cost := rfl
@[simp] theorem State.setZnh_cfg : (s.setZnh z n h).cfg = s.cfg := rfl

end

section

variable (s : State) (n h c : Bool)

@[simp] theorem State.setNhc_a : (s.setNhc n h c).a = s.a := rfl
@[simp] theorem State.setNhc_b : (s.setNhc n h c).b = s.b := rfl
@[simp] theorem State.setNhc_c : (s.setNhc n h c).c = s.c := rfl
@[simp] theorem State.setNhc_d : (s.setNhc n h c).d = s.d := rfl
@[simp] theorem State.setNhc_e : (s.setNhc n h c).e = s.e := rfl
@[simp] theorem State.setNhc_h : (s.setNhc n h c).h = s.h := rfl
@[simp] theorem State.setNhc_l : (s.setNhc n h c).l = s.l := rfl
@[simp] theorem State.setNhc_fz : (s.setNhc n h c).fz = s.fz := rfl
@[simp] theorem State.setNhc_fn : (s.setNhc n h c).fn = n := rfl
@[simp] theorem State.setNhc_fh : (s.setNhc n h c).fh = h := rfl
@[simp] theorem State.setNhc_fc : (s.setNhc n h c).fc = c := rfl
@[simp] theorem State.setNhc_sp : (s.setNhc n h c).sp = s.sp := rfl
@[simp] theorem State.setNhc_pc : (s.setNhc n h c).pc = s.pc := rfl
@[simp] theorem State.setNhc_ime : (s.setNhc n h c).ime = s.ime := rfl
@[simp] theorem State.setNhc_imePending : (s.setNhc n h c).imePending = s.imePending := rfl
@[simp] theorem State.setNhc_halted : (s.setNhc n h c).halted = s.halted := rfl
@[simp] theorem State.setNhc_fault : (s.setNhc n h c).fault = s.fault := rfl
@[simp] theorem State.setNhc_dots : (s.setNhc n h c).dots = s.dots := rfl
@[simp] theorem State.setNhc_ly : (s.setNhc n h c).ly = s.ly := rfl
@[simp] theorem State.setNhc_mem : (s.setNhc n h c).mem = s.mem := rfl
@[simp] theorem State.setNhc_events : (s.setNhc n h c).events = s.events := rfl
@[simp] theorem State.setNhc_cost : (s.setNhc n h c).cost = s.cost := rfl
@[simp] theorem State.setNhc_cfg : (s.setNhc n h c).cfg = s.cfg := rfl

end

section

variable (s : State) (o : AluOut)

@[simp] theorem State.setAlu_a : (s.setAlu o).a = o.res := rfl
@[simp] theorem State.setAlu_b : (s.setAlu o).b = s.b := rfl
@[simp] theorem State.setAlu_c : (s.setAlu o).c = s.c := rfl
@[simp] theorem State.setAlu_d : (s.setAlu o).d = s.d := rfl
@[simp] theorem State.setAlu_e : (s.setAlu o).e = s.e := rfl
@[simp] theorem State.setAlu_h : (s.setAlu o).h = s.h := rfl
@[simp] theorem State.setAlu_l : (s.setAlu o).l = s.l := rfl
@[simp] theorem State.setAlu_fz : (s.setAlu o).fz = o.z := rfl
@[simp] theorem State.setAlu_fn : (s.setAlu o).fn = o.n := rfl
@[simp] theorem State.setAlu_fh : (s.setAlu o).fh = o.h := rfl
@[simp] theorem State.setAlu_fc : (s.setAlu o).fc = o.c := rfl
@[simp] theorem State.setAlu_sp : (s.setAlu o).sp = s.sp := rfl
@[simp] theorem State.setAlu_pc : (s.setAlu o).pc = s.pc := rfl
@[simp] theorem State.setAlu_ime : (s.setAlu o).ime = s.ime := rfl
@[simp] theorem State.setAlu_imePending : (s.setAlu o).imePending = s.imePending := rfl
@[simp] theorem State.setAlu_halted : (s.setAlu o).halted = s.halted := rfl
@[simp] theorem State.setAlu_fault : (s.setAlu o).fault = s.fault := rfl
@[simp] theorem State.setAlu_dots : (s.setAlu o).dots = s.dots := rfl
@[simp] theorem State.setAlu_ly : (s.setAlu o).ly = s.ly := rfl
@[simp] theorem State.setAlu_mem : (s.setAlu o).mem = s.mem := rfl
@[simp] theorem State.setAlu_events : (s.setAlu o).events = s.events := rfl
@[simp] theorem State.setAlu_cost : (s.setAlu o).cost = s.cost := rfl
@[simp] theorem State.setAlu_cfg : (s.setAlu o).cfg = s.cfg := rfl

end

section

variable (s : State) (o : AluOut)

@[simp] theorem State.setAluFlags_a : (s.setAluFlags o).a = s.a := rfl
@[simp] theorem State.setAluFlags_b : (s.setAluFlags o).b = s.b := rfl
@[simp] theorem State.setAluFlags_c : (s.setAluFlags o).c = s.c := rfl
@[simp] theorem State.setAluFlags_d : (s.setAluFlags o).d = s.d := rfl
@[simp] theorem State.setAluFlags_e : (s.setAluFlags o).e = s.e := rfl
@[simp] theorem State.setAluFlags_h : (s.setAluFlags o).h = s.h := rfl
@[simp] theorem State.setAluFlags_l : (s.setAluFlags o).l = s.l := rfl
@[simp] theorem State.setAluFlags_fz : (s.setAluFlags o).fz = o.z := rfl
@[simp] theorem State.setAluFlags_fn : (s.setAluFlags o).fn = o.n := rfl
@[simp] theorem State.setAluFlags_fh : (s.setAluFlags o).fh = o.h := rfl
@[simp] theorem State.setAluFlags_fc : (s.setAluFlags o).fc = o.c := rfl
@[simp] theorem State.setAluFlags_sp : (s.setAluFlags o).sp = s.sp := rfl
@[simp] theorem State.setAluFlags_pc : (s.setAluFlags o).pc = s.pc := rfl
@[simp] theorem State.setAluFlags_ime : (s.setAluFlags o).ime = s.ime := rfl
@[simp] theorem State.setAluFlags_imePending : (s.setAluFlags o).imePending = s.imePending := rfl
@[simp] theorem State.setAluFlags_halted : (s.setAluFlags o).halted = s.halted := rfl
@[simp] theorem State.setAluFlags_fault : (s.setAluFlags o).fault = s.fault := rfl
@[simp] theorem State.setAluFlags_dots : (s.setAluFlags o).dots = s.dots := rfl
@[simp] theorem State.setAluFlags_ly : (s.setAluFlags o).ly = s.ly := rfl
@[simp] theorem State.setAluFlags_mem : (s.setAluFlags o).mem = s.mem := rfl
@[simp] theorem State.setAluFlags_events : (s.setAluFlags o).events = s.events := rfl
@[simp] theorem State.setAluFlags_cost : (s.setAluFlags o).cost = s.cost := rfl
@[simp] theorem State.setAluFlags_cfg : (s.setAluFlags o).cfg = s.cfg := rfl

end

section

variable (s : State) (o : Byte × Bool)

@[simp] theorem State.setRotA_a : (s.setRotA o).a = o.1 := rfl
@[simp] theorem State.setRotA_b : (s.setRotA o).b = s.b := rfl
@[simp] theorem State.setRotA_c : (s.setRotA o).c = s.c := rfl
@[simp] theorem State.setRotA_d : (s.setRotA o).d = s.d := rfl
@[simp] theorem State.setRotA_e : (s.setRotA o).e = s.e := rfl
@[simp] theorem State.setRotA_h : (s.setRotA o).h = s.h := rfl
@[simp] theorem State.setRotA_l : (s.setRotA o).l = s.l := rfl
@[simp] theorem State.setRotA_fz : (s.setRotA o).fz = false := rfl
@[simp] theorem State.setRotA_fn : (s.setRotA o).fn = false := rfl
@[simp] theorem State.setRotA_fh : (s.setRotA o).fh = false := rfl
@[simp] theorem State.setRotA_fc : (s.setRotA o).fc = o.2 := rfl
@[simp] theorem State.setRotA_sp : (s.setRotA o).sp = s.sp := rfl
@[simp] theorem State.setRotA_pc : (s.setRotA o).pc = s.pc := rfl
@[simp] theorem State.setRotA_ime : (s.setRotA o).ime = s.ime := rfl
@[simp] theorem State.setRotA_imePending : (s.setRotA o).imePending = s.imePending := rfl
@[simp] theorem State.setRotA_halted : (s.setRotA o).halted = s.halted := rfl
@[simp] theorem State.setRotA_fault : (s.setRotA o).fault = s.fault := rfl
@[simp] theorem State.setRotA_dots : (s.setRotA o).dots = s.dots := rfl
@[simp] theorem State.setRotA_ly : (s.setRotA o).ly = s.ly := rfl
@[simp] theorem State.setRotA_mem : (s.setRotA o).mem = s.mem := rfl
@[simp] theorem State.setRotA_events : (s.setRotA o).events = s.events := rfl
@[simp] theorem State.setRotA_cost : (s.setRotA o).cost = s.cost := rfl
@[simp] theorem State.setRotA_cfg : (s.setRotA o).cfg = s.cfg := rfl

end

section

variable (s : State) (v : Byte)

@[simp] theorem State.setFlagByte_a : (s.setFlagByte v).a = s.a := rfl
@[simp] theorem State.setFlagByte_b : (s.setFlagByte v).b = s.b := rfl
@[simp] theorem State.setFlagByte_c : (s.setFlagByte v).c = s.c := rfl
@[simp] theorem State.setFlagByte_d : (s.setFlagByte v).d = s.d := rfl
@[simp] theorem State.setFlagByte_e : (s.setFlagByte v).e = s.e := rfl
@[simp] theorem State.setFlagByte_h : (s.setFlagByte v).h = s.h := rfl
@[simp] theorem State.setFlagByte_l : (s.setFlagByte v).l = s.l := rfl
@[simp] theorem State.setFlagByte_fz : (s.setFlagByte v).fz = v.getLsbD 7 := rfl
@[simp] theorem State.setFlagByte_fn : (s.setFlagByte v).fn = v.getLsbD 6 := rfl
@[simp] theorem State.setFlagByte_fh : (s.setFlagByte v).fh = v.getLsbD 5 := rfl
@[simp] theorem State.setFlagByte_fc : (s.setFlagByte v).fc = v.getLsbD 4 := rfl
@[simp] theorem State.setFlagByte_sp : (s.setFlagByte v).sp = s.sp := rfl
@[simp] theorem State.setFlagByte_pc : (s.setFlagByte v).pc = s.pc := rfl
@[simp] theorem State.setFlagByte_ime : (s.setFlagByte v).ime = s.ime := rfl
@[simp] theorem State.setFlagByte_imePending : (s.setFlagByte v).imePending = s.imePending := rfl
@[simp] theorem State.setFlagByte_halted : (s.setFlagByte v).halted = s.halted := rfl
@[simp] theorem State.setFlagByte_fault : (s.setFlagByte v).fault = s.fault := rfl
@[simp] theorem State.setFlagByte_dots : (s.setFlagByte v).dots = s.dots := rfl
@[simp] theorem State.setFlagByte_ly : (s.setFlagByte v).ly = s.ly := rfl
@[simp] theorem State.setFlagByte_mem : (s.setFlagByte v).mem = s.mem := rfl
@[simp] theorem State.setFlagByte_events : (s.setFlagByte v).events = s.events := rfl
@[simp] theorem State.setFlagByte_cost : (s.setFlagByte v).cost = s.cost := rfl
@[simp] theorem State.setFlagByte_cfg : (s.setFlagByte v).cfg = s.cfg := rfl

end

section

variable (s : State) (v : Word)

@[simp] theorem State.setBc_a : (s.setBc v).a = s.a := rfl
@[simp] theorem State.setBc_b : (s.setBc v).b = hiByte v := rfl
@[simp] theorem State.setBc_c : (s.setBc v).c = loByte v := rfl
@[simp] theorem State.setBc_d : (s.setBc v).d = s.d := rfl
@[simp] theorem State.setBc_e : (s.setBc v).e = s.e := rfl
@[simp] theorem State.setBc_h : (s.setBc v).h = s.h := rfl
@[simp] theorem State.setBc_l : (s.setBc v).l = s.l := rfl
@[simp] theorem State.setBc_fz : (s.setBc v).fz = s.fz := rfl
@[simp] theorem State.setBc_fn : (s.setBc v).fn = s.fn := rfl
@[simp] theorem State.setBc_fh : (s.setBc v).fh = s.fh := rfl
@[simp] theorem State.setBc_fc : (s.setBc v).fc = s.fc := rfl
@[simp] theorem State.setBc_sp : (s.setBc v).sp = s.sp := rfl
@[simp] theorem State.setBc_pc : (s.setBc v).pc = s.pc := rfl
@[simp] theorem State.setBc_ime : (s.setBc v).ime = s.ime := rfl
@[simp] theorem State.setBc_imePending : (s.setBc v).imePending = s.imePending := rfl
@[simp] theorem State.setBc_halted : (s.setBc v).halted = s.halted := rfl
@[simp] theorem State.setBc_fault : (s.setBc v).fault = s.fault := rfl
@[simp] theorem State.setBc_dots : (s.setBc v).dots = s.dots := rfl
@[simp] theorem State.setBc_ly : (s.setBc v).ly = s.ly := rfl
@[simp] theorem State.setBc_mem : (s.setBc v).mem = s.mem := rfl
@[simp] theorem State.setBc_events : (s.setBc v).events = s.events := rfl
@[simp] theorem State.setBc_cost : (s.setBc v).cost = s.cost := rfl
@[simp] theorem State.setBc_cfg : (s.setBc v).cfg = s.cfg := rfl

end

section

variable (s : State) (v : Word)

@[simp] theorem State.setDe_a : (s.setDe v).a = s.a := rfl
@[simp] theorem State.setDe_b : (s.setDe v).b = s.b := rfl
@[simp] theorem State.setDe_c : (s.setDe v).c = s.c := rfl
@[simp] theorem State.setDe_d : (s.setDe v).d = hiByte v := rfl
@[simp] theorem State.setDe_e : (s.setDe v).e = loByte v := rfl
@[simp] theorem State.setDe_h : (s.setDe v).h = s.h := rfl
@[simp] theorem State.setDe_l : (s.setDe v).l = s.l := rfl
@[simp] theorem State.setDe_fz : (s.setDe v).fz = s.fz := rfl
@[simp] theorem State.setDe_fn : (s.setDe v).fn = s.fn := rfl
@[simp] theorem State.setDe_fh : (s.setDe v).fh = s.fh := rfl
@[simp] theorem State.setDe_fc : (s.setDe v).fc = s.fc := rfl
@[simp] theorem State.setDe_sp : (s.setDe v).sp = s.sp := rfl
@[simp] theorem State.setDe_pc : (s.setDe v).pc = s.pc := rfl
@[simp] theorem State.setDe_ime : (s.setDe v).ime = s.ime := rfl
@[simp] theorem State.setDe_imePending : (s.setDe v).imePending = s.imePending := rfl
@[simp] theorem State.setDe_halted : (s.setDe v).halted = s.halted := rfl
@[simp] theorem State.setDe_fault : (s.setDe v).fault = s.fault := rfl
@[simp] theorem State.setDe_dots : (s.setDe v).dots = s.dots := rfl
@[simp] theorem State.setDe_ly : (s.setDe v).ly = s.ly := rfl
@[simp] theorem State.setDe_mem : (s.setDe v).mem = s.mem := rfl
@[simp] theorem State.setDe_events : (s.setDe v).events = s.events := rfl
@[simp] theorem State.setDe_cost : (s.setDe v).cost = s.cost := rfl
@[simp] theorem State.setDe_cfg : (s.setDe v).cfg = s.cfg := rfl

end

section

variable (s : State) (v : Word)

@[simp] theorem State.setHl_a : (s.setHl v).a = s.a := rfl
@[simp] theorem State.setHl_b : (s.setHl v).b = s.b := rfl
@[simp] theorem State.setHl_c : (s.setHl v).c = s.c := rfl
@[simp] theorem State.setHl_d : (s.setHl v).d = s.d := rfl
@[simp] theorem State.setHl_e : (s.setHl v).e = s.e := rfl
@[simp] theorem State.setHl_h : (s.setHl v).h = hiByte v := rfl
@[simp] theorem State.setHl_l : (s.setHl v).l = loByte v := rfl
@[simp] theorem State.setHl_fz : (s.setHl v).fz = s.fz := rfl
@[simp] theorem State.setHl_fn : (s.setHl v).fn = s.fn := rfl
@[simp] theorem State.setHl_fh : (s.setHl v).fh = s.fh := rfl
@[simp] theorem State.setHl_fc : (s.setHl v).fc = s.fc := rfl
@[simp] theorem State.setHl_sp : (s.setHl v).sp = s.sp := rfl
@[simp] theorem State.setHl_pc : (s.setHl v).pc = s.pc := rfl
@[simp] theorem State.setHl_ime : (s.setHl v).ime = s.ime := rfl
@[simp] theorem State.setHl_imePending : (s.setHl v).imePending = s.imePending := rfl
@[simp] theorem State.setHl_halted : (s.setHl v).halted = s.halted := rfl
@[simp] theorem State.setHl_fault : (s.setHl v).fault = s.fault := rfl
@[simp] theorem State.setHl_dots : (s.setHl v).dots = s.dots := rfl
@[simp] theorem State.setHl_ly : (s.setHl v).ly = s.ly := rfl
@[simp] theorem State.setHl_mem : (s.setHl v).mem = s.mem := rfl
@[simp] theorem State.setHl_events : (s.setHl v).events = s.events := rfl
@[simp] theorem State.setHl_cost : (s.setHl v).cost = s.cost := rfl
@[simp] theorem State.setHl_cfg : (s.setHl v).cfg = s.cfg := rfl

end

section

variable (s : State) (v : Word)

@[simp] theorem State.setAf_a : (s.setAf v).a = hiByte v := rfl
@[simp] theorem State.setAf_b : (s.setAf v).b = s.b := rfl
@[simp] theorem State.setAf_c : (s.setAf v).c = s.c := rfl
@[simp] theorem State.setAf_d : (s.setAf v).d = s.d := rfl
@[simp] theorem State.setAf_e : (s.setAf v).e = s.e := rfl
@[simp] theorem State.setAf_h : (s.setAf v).h = s.h := rfl
@[simp] theorem State.setAf_l : (s.setAf v).l = s.l := rfl
@[simp] theorem State.setAf_fz : (s.setAf v).fz = (loByte v).getLsbD 7 := rfl
@[simp] theorem State.setAf_fn : (s.setAf v).fn = (loByte v).getLsbD 6 := rfl
@[simp] theorem State.setAf_fh : (s.setAf v).fh = (loByte v).getLsbD 5 := rfl
@[simp] theorem State.setAf_fc : (s.setAf v).fc = (loByte v).getLsbD 4 := rfl
@[simp] theorem State.setAf_sp : (s.setAf v).sp = s.sp := rfl
@[simp] theorem State.setAf_pc : (s.setAf v).pc = s.pc := rfl
@[simp] theorem State.setAf_ime : (s.setAf v).ime = s.ime := rfl
@[simp] theorem State.setAf_imePending : (s.setAf v).imePending = s.imePending := rfl
@[simp] theorem State.setAf_halted : (s.setAf v).halted = s.halted := rfl
@[simp] theorem State.setAf_fault : (s.setAf v).fault = s.fault := rfl
@[simp] theorem State.setAf_dots : (s.setAf v).dots = s.dots := rfl
@[simp] theorem State.setAf_ly : (s.setAf v).ly = s.ly := rfl
@[simp] theorem State.setAf_mem : (s.setAf v).mem = s.mem := rfl
@[simp] theorem State.setAf_events : (s.setAf v).events = s.events := rfl
@[simp] theorem State.setAf_cost : (s.setAf v).cost = s.cost := rfl
@[simp] theorem State.setAf_cfg : (s.setAf v).cfg = s.cfg := rfl

end

section

variable (s : State) (es : List Event)

@[simp] theorem State.emit_a : (s.emit es).a = s.a := rfl
@[simp] theorem State.emit_b : (s.emit es).b = s.b := rfl
@[simp] theorem State.emit_c : (s.emit es).c = s.c := rfl
@[simp] theorem State.emit_d : (s.emit es).d = s.d := rfl
@[simp] theorem State.emit_e : (s.emit es).e = s.e := rfl
@[simp] theorem State.emit_h : (s.emit es).h = s.h := rfl
@[simp] theorem State.emit_l : (s.emit es).l = s.l := rfl
@[simp] theorem State.emit_fz : (s.emit es).fz = s.fz := rfl
@[simp] theorem State.emit_fn : (s.emit es).fn = s.fn := rfl
@[simp] theorem State.emit_fh : (s.emit es).fh = s.fh := rfl
@[simp] theorem State.emit_fc : (s.emit es).fc = s.fc := rfl
@[simp] theorem State.emit_sp : (s.emit es).sp = s.sp := rfl
@[simp] theorem State.emit_pc : (s.emit es).pc = s.pc := rfl
@[simp] theorem State.emit_ime : (s.emit es).ime = s.ime := rfl
@[simp] theorem State.emit_imePending : (s.emit es).imePending = s.imePending := rfl
@[simp] theorem State.emit_halted : (s.emit es).halted = s.halted := rfl
@[simp] theorem State.emit_fault : (s.emit es).fault = s.fault := rfl
@[simp] theorem State.emit_dots : (s.emit es).dots = s.dots := rfl
@[simp] theorem State.emit_ly : (s.emit es).ly = s.ly := rfl
@[simp] theorem State.emit_mem : (s.emit es).mem = s.mem := rfl
@[simp] theorem State.emit_events : (s.emit es).events = s.events ++ es := rfl
@[simp] theorem State.emit_cost : (s.emit es).cost = s.cost := rfl
@[simp] theorem State.emit_cfg : (s.emit es).cfg = s.cfg := rfl

end

end Sys2Proof.Machine
end

