-- ==== Sys2Proof/Laws/Memory.lean ====
section
/-! SUPPORT. The laws of storage (R73) and its canonical form. -/

namespace Sys2Proof.Machine

/-! ## Read after write; none of these needs the canonical form -/

theorem read_erase_same (m : Memory) (a : Nat) : (Memory.erase m a).read a = unlistedByte := by
  induction m with
  | nil => rfl
  | cons cell m ih =>
    obtain ⟨k, v⟩ := cell
    by_cases h : k = a <;> simp [Memory.erase, Memory.read, h, ih]

theorem read_erase_other (m : Memory) (a x : Nat) (hx : x ≠ a) :
    (Memory.erase m a).read x = m.read x := by
  induction m with
  | nil => rfl
  | cons cell m ih =>
    obtain ⟨k, v⟩ := cell
    by_cases h : k = a
    · subst h; simp [Memory.erase, Memory.read, ih, Ne.symm hx]
    · simp only [Memory.erase, h, if_false, Memory.read, ih]

/-- No entry has the address. -/
def Memory.free (m : Memory) (a : Nat) : Bool := m.all fun cell => cell.1 != a

theorem free_erase (m : Memory) (a : Nat) : Memory.free (Memory.erase m a) a = true := by
  induction m with
  | nil => rfl
  | cons cell m ih =>
    obtain ⟨k, v⟩ := cell
    by_cases h : k = a
    · simp [Memory.erase, h, ih]
    · simp only [Memory.erase, h, if_false]
      simp only [Memory.free, List.all_cons, Bool.and_eq_true] at ih ⊢
      exact ⟨by simpa using h, ih⟩

theorem read_insert_same (m : Memory) (a : Nat) (v : Byte) (hm : Memory.free m a = true) :
    (Memory.insert m a v).read a = v := by
  induction m with
  | nil => simp [Memory.insert, Memory.read]
  | cons cell m ih =>
    obtain ⟨k, w⟩ := cell
    simp only [Memory.free, List.all_cons, Bool.and_eq_true, bne_iff_ne, ne_eq] at hm
    by_cases h : a < k
    · simp [Memory.insert, Memory.read, h]
    · simp [Memory.insert, Memory.read, h, hm.1, ih hm.2]

theorem read_insert_other (m : Memory) (a x : Nat) (v : Byte) (hx : x ≠ a) :
    (Memory.insert m a v).read x = m.read x := by
  induction m with
  | nil => simp [Memory.insert, Memory.read, Ne.symm hx]
  | cons cell m ih =>
    obtain ⟨k, w⟩ := cell
    by_cases h : a < k
    · simp [Memory.insert, Memory.read, h, Ne.symm hx]
    · simp [Memory.insert, Memory.read, h, ih]

@[simp] theorem read_write_same (m : Memory) (a : Nat) (v : Byte) : (m.write a v).read a = v := by
  unfold Memory.write
  split
  · next h => rw [h]; exact read_erase_same m a
  · exact read_insert_same _ _ _ (free_erase m a)

theorem read_write_other (m : Memory) (a x : Nat) (v : Byte) (hx : x ≠ a) :
    (m.write a v).read x = m.read x := by
  unfold Memory.write
  split
  · exact read_erase_other m a x hx
  · rw [read_insert_other _ _ _ _ hx, read_erase_other _ _ _ hx]

theorem read_write (m : Memory) (a x : Nat) (v : Byte) :
    (m.write a v).read x = if x = a then v else m.read x := by
  by_cases h : x = a
  · simp [h]
  · simp [h, read_write_other]

/-! ## The canonical form is kept -/

theorem wfFrom_mono (m : Memory) (i j : Nat) (h : j ≤ i) (hm : Memory.wfFrom i m = true) :
    Memory.wfFrom j m = true := by
  cases m with
  | nil => rfl
  | cons cell m =>
    obtain ⟨k, v⟩ := cell
    simp only [Memory.wfFrom, Bool.and_eq_true, decide_eq_true_eq] at hm ⊢
    exact ⟨⟨⟨by omega, hm.1.1.2⟩, hm.1.2⟩, hm.2⟩

theorem wfFrom_erase (m : Memory) (low a : Nat) (hm : Memory.wfFrom low m = true) :
    Memory.wfFrom low (Memory.erase m a) = true := by
  induction m generalizing low with
  | nil => rfl
  | cons cell m ih =>
    obtain ⟨k, v⟩ := cell
    simp only [Memory.wfFrom, Bool.and_eq_true, decide_eq_true_eq] at hm
    by_cases h : k = a
    · simp only [Memory.erase, h, if_true]
      exact wfFrom_mono _ _ _ (by omega) (ih _ hm.2)
    · simp only [Memory.erase, h, if_false, Memory.wfFrom, Bool.and_eq_true, decide_eq_true_eq]
      exact ⟨hm.1, ih _ hm.2⟩

theorem wfFrom_insert (m : Memory) (low a : Nat) (v : Byte) (hm : Memory.wfFrom low m = true)
    (ha : low ≤ a) (ha' : a < 65536) (hv : v ≠ unlistedByte) (hf : Memory.free m a = true) :
    Memory.wfFrom low (Memory.insert m a v) = true := by
  induction m generalizing low with
  | nil => simp [Memory.insert, Memory.wfFrom, ha, ha', hv]
  | cons cell m ih =>
    obtain ⟨k, w⟩ := cell
    simp only [Memory.wfFrom, Bool.and_eq_true, decide_eq_true_eq] at hm
    simp only [Memory.free, List.all_cons, Bool.and_eq_true, bne_iff_ne, ne_eq] at hf
    by_cases h : a < k
    · simp only [Memory.insert, h, if_true, Memory.wfFrom, Bool.and_eq_true, decide_eq_true_eq,
        bne_iff_ne, ne_eq]
      exact ⟨⟨⟨ha, ha'⟩, hv⟩, ⟨⟨by omega, hm.1.1.2⟩, by simpa using hm.1.2⟩, hm.2⟩
    · simp only [Memory.insert, h, if_false, Memory.wfFrom, Bool.and_eq_true, decide_eq_true_eq]
      exact ⟨hm.1, ih _ hm.2 (by have := hf.1; omega) hf.2⟩

/-- Every write keeps the canonical form. -/
theorem wf_write (m : Memory) (a : Nat) (v : Byte) (ha : a < 65536) (hm : m.wf = true) :
    (m.write a v).wf = true := by
  unfold Memory.wf Memory.write at *
  split
  · exact wfFrom_erase _ _ _ hm
  · next h => exact wfFrom_insert _ _ _ _ (wfFrom_erase _ _ _ hm) (by omega) ha h (free_erase m a)

/-! ## The same on State, through the one-byte read -/

@[simp] theorem peek_poke_same (s : State) (a : Word) (v : Byte) : (s.poke a v).peek a = v := by
  simp [State.peek]

theorem peek_poke (s : State) (a x : Word) (v : Byte) :
    (s.poke a v).peek x = if x = a then v else s.peek x := by
  simp [State.peek, read_write, BitVec.toNat_inj]

theorem peek_poke_other (s : State) (a x : Word) (v : Byte) (h : x ≠ a) :
    (s.poke a v).peek x = s.peek x := by
  simp [peek_poke, h]

theorem poke_wf (s : State) (a : Word) (v : Byte) (h : s.mem.wf = true) :
    (s.poke a v).mem.wf = true := wf_write _ _ _ a.isLt h

/-- Two states with the same storage read alike. -/
theorem peek_congr (s t : State) (h : t.mem = s.mem) (a : Word) : t.peek a = s.peek a := by
  simp [State.peek, h]

end Sys2Proof.Machine
end

