-- ==== Sys2Proof/Laws/Cartridge.lean ====
section
/-! SUPPORT. Loading an image keeps storage canonical and reads back as the image below 0x8000 and as
the storage before above it. -/

namespace Sys2Proof.Machine

theorem romCells_wf (low : Nat) (image : List Byte) (m : Memory) (h : low + image.length ≤ 0x8000)
    (hm : Memory.wfFrom 0x8000 m = true) : Memory.wfFrom low (romCells low image ++ m) = true := by
  induction image generalizing low with
  | nil => exact wfFrom_mono _ _ _ (by simpa using h) hm
  | cons v rest ih =>
    simp only [List.length_cons] at h
    have hr := ih (low + 1) (by omega)
    unfold romCells; split
    · exact wfFrom_mono _ _ _ (by omega) hr
    · next hv =>
      simp only [List.cons_append, Memory.wfFrom, Bool.and_eq_true, decide_eq_true_eq, bne_iff_ne]
      exact ⟨⟨⟨by omega, by omega⟩, hv⟩, hr⟩

theorem dropRom_wf (low : Nat) (m : Memory) (h : Memory.wfFrom low m = true) :
    Memory.wfFrom (max low 0x8000) (dropRom m) = true := by
  induction m generalizing low with
  | nil => rfl
  | cons cell m ih =>
    obtain ⟨k, v⟩ := cell
    simp only [Memory.wfFrom, Bool.and_eq_true, decide_eq_true_eq] at h
    have hr := ih _ h.2
    simp only [dropRom, List.filter_cons]; split
    · next hk =>
      simp only [decide_eq_true_eq] at hk
      simp only [Memory.wfFrom, Bool.and_eq_true, decide_eq_true_eq]
      rw [show max (k + 1) 0x8000 = k + 1 by omega] at hr
      exact ⟨⟨⟨by omega, h.1.1.2⟩, h.1.2⟩, hr⟩
    · exact wfFrom_mono _ _ _ (by omega) hr

theorem read_romCells_above (low : Nat) (image : List Byte) (m : Memory) (a : Nat)
    (h : low + image.length ≤ a) : (romCells low image ++ m).read a = m.read a := by
  induction image generalizing low with
  | nil => rfl
  | cons v rest ih =>
    simp only [List.length_cons] at h
    unfold romCells; split
    · exact ih _ (by omega)
    · simp only [List.cons_append, Memory.read]
      rw [if_neg (by omega)]; exact ih _ (by omega)

theorem read_dropRom (m : Memory) (a : Nat) (h : 0x8000 ≤ a) : (dropRom m).read a = m.read a := by
  induction m with
  | nil => rfl
  | cons cell m ih =>
    obtain ⟨k, v⟩ := cell
    simp only [dropRom, List.filter_cons]; split
    · simp only [Memory.read]; split <;> [rfl; exact ih]
    · next hk =>
      simp only [decide_eq_true_eq] at hk
      simp only [Memory.read]; rw [if_neg (by omega)]; exact ih

/-- `load_cartridge` answers storage exactly for an image of 32768 bytes (R75), and keeps it canonical. -/
theorem loadCartridge_ok (image : List Byte) (m : Memory) (h : image.length = 32768) :
    loadCartridge image m = .ok (romCells 0 image ++ dropRom m) := if_pos h

theorem loadCartridge_wf (image : List Byte) (m m' : Memory) (hm : m.wf = true)
    (h : loadCartridge image m = .ok m') : m'.wf = true := by
  unfold loadCartridge at h
  split at h
  · next hl =>
    injection h with h; subst h
    exact romCells_wf 0 image _ (by omega) (dropRom_wf 0 m hm)
  · exact absurd h (by simp)

end Sys2Proof.Machine
end

