-- ==== Sys2Proof/Laws/Ops.lean ====
section
/-! SUPPORT. One lemma per shared operation that says all it can do; callers cite these. -/

namespace Sys2Proof.Machine

section Res

variable {α β : Type} (v : α) (s : State)

@[simp] theorem Res.bind_ok (k : α → State → Res β) : (Res.ok v s).bind k = k v s := rfl

@[simp] theorem Res.bind_raised (k : α → State → Res β) : (Res.raised s).bind k = .raised s := rfl

@[simp] theorem Res.run_ok (k : α → State → Out) : (Res.ok v s).run k = k v s := rfl

@[simp] theorem Res.run_raised (k : α → State → Out) : (Res.raised (α := α) s).run k = .next s := rfl

end Res

/-! ## The bus -/

theorem busRead_ok {a : Word} (s : State) (h : readable a = true) :
    busRead a s = .ok (s.peek a) s := by simp [busRead, h]

theorem busRead_raised {a : Word} (s : State) (h : readable a = false) :
    busRead a s = .raised (s.raise (.illegalMemoryAccess a .read)) := by simp [busRead, h]

theorem busWrite_ok {a : Word} (v : Byte) (s : State) (h : writable a = true) :
    busWrite a v s = .ok () (s.poke a v) := by simp [busWrite, h]

theorem busWrite_raised {a : Word} (v : Byte) (s : State) (h : writable a = false) :
    busWrite a v s = .raised (s.raise (.illegalMemoryAccess a .write)) := by simp [busWrite, h]

/-- What is writable is readable (R61). -/
theorem readable_of_writable {a : Word} (h : writable a = true) : readable a = true := by
  unfold readable writable at *
  cases e : regionOf a <;> simp_all [Region.readable, Region.writable]

/-- The addresses of the `LDH` forms are all readable and writable (R316). -/
theorem highPage_writable (v : Byte) : writable (highPage v) = true := by
  revert v; decide

theorem highPage_readable (v : Byte) : readable (highPage v) = true :=
  readable_of_writable (highPage_writable v)

theorem lyAddr_writable (cfg : Config) : writable (lyAddr cfg) = true := by
  unfold lyAddr; generalize cfg.lyOffset = o; revert o; decide

theorem ifAddr_writable : writable ifAddr = true := by decide

/-- The writable addresses are those of 0x8000 to 0xDFFF, 0xFE00 to 0xFE9F and 0xFF00 up. -/
theorem writable_iff (a : Word) : writable a = true ↔
    (0x8000 ≤ a.toNat ∧ a.toNat ≤ 0xDFFF) ∨ (0xFE00 ≤ a.toNat ∧ a.toNat ≤ 0xFE9F) ∨
      0xFF00 ≤ a.toNat := by
  have := a.isLt
  unfold writable regionOf
  repeat' split
  all_goals simp only [Region.writable, Bool.false_eq_true, false_iff, true_iff]
  all_goals omega

/-- The readable addresses are all but 0xE000 to 0xFDFF and 0xFEA0 to 0xFEFF. -/
theorem readable_iff (a : Word) : readable a = true ↔
    a.toNat ≤ 0xDFFF ∨ (0xFE00 ≤ a.toNat ∧ a.toNat ≤ 0xFE9F) ∨ 0xFF00 ≤ a.toNat := by
  have := a.isLt
  unfold readable regionOf
  repeat' split
  all_goals simp only [Region.readable, Bool.false_eq_true, false_iff, true_iff]
  all_goals omega

/-! ## Fetching -/

theorem fetch8_ok (s : State) (h : readable s.pc = true) :
    fetch8 s = .ok (s.peek s.pc) { s with pc := s.pc + 1 } := by
  simp [fetch8, busRead_ok s h]

theorem fetch8_raised (s : State) (h : readable s.pc = false) :
    fetch8 s = .raised (s.raise (.illegalMemoryAccess s.pc .read)) := by
  simp [fetch8, busRead_raised s h]

/-! ## The stack -/

/-- `Push16` where both addresses are writable (R340). -/
theorem push16_ok (v : Word) (s : State) (h1 : writable (s.sp - 1) = true)
    (h2 : writable (s.sp - 2) = true) :
    push16 v s = .ok ()
      { ((s.poke (s.sp - 1) (hiByte v)).poke (s.sp - 2) (loByte v)) with sp := s.sp - 2 } := by
  have e : s.sp - 1 - 1 = s.sp - 2 := by bv_omega
  simp only [push16, busWrite_ok, h1, h2, Res.bind_ok, State.poke, e]

/-- `Push16` whose first write raises leaves SP lowered by 1 and stores nothing. -/
theorem push16_raised_first (v : Word) (s : State) (h1 : writable (s.sp - 1) = false) :
    push16 v s = .raised ({ s with sp := s.sp - 1 }.raise
      (.illegalMemoryAccess (s.sp - 1) .write)) := by
  simp only [push16, busWrite_raised, h1, Res.bind_raised]

/-- `Push16` whose second write raises has stored the high byte and lowered SP by 2. -/
theorem push16_raised_second (v : Word) (s : State) (h1 : writable (s.sp - 1) = true)
    (h2 : writable (s.sp - 2) = false) :
    push16 v s = .raised ({ (s.poke (s.sp - 1) (hiByte v)) with sp := s.sp - 2 }.raise
      (.illegalMemoryAccess (s.sp - 2) .write)) := by
  have e : s.sp - 1 - 1 = s.sp - 2 := by bv_omega
  simp only [push16, busWrite_ok, busWrite_raised, h1, h2, Res.bind_ok, State.poke, e]

/-- `Pop16` where both addresses are readable (R340). -/
theorem pop16_ok (s : State) (h1 : readable s.sp = true) (h2 : readable (s.sp + 1) = true) :
    pop16 s = .ok (mkWord (s.peek (s.sp + 1)) (s.peek s.sp)) { s with sp := s.sp + 2 } := by
  have e : s.sp + 1 + 1 = s.sp + 2 := by bv_omega
  simp only [pop16, busRead_ok, h1, h2, Res.bind_ok, State.peek, e]

theorem pop16_raised_first (s : State) (h1 : readable s.sp = false) :
    pop16 s = .raised (s.raise (.illegalMemoryAccess s.sp .read)) := by
  simp only [pop16, busRead_raised, h1, Res.bind_raised]

/-- `Pop16` whose second read raises has raised SP by 1. -/
theorem pop16_raised_second (s : State) (h1 : readable s.sp = true)
    (h2 : readable (s.sp + 1) = false) :
    pop16 s = .raised ({ s with sp := s.sp + 1 }.raise
      (.illegalMemoryAccess (s.sp + 1) .read)) := by
  simp only [pop16, busRead_ok, busRead_raised, h1, h2, Res.bind_ok, Res.bind_raised]

/-! ## What an operation can do, in one sentence each: a value and a state, or a raised state -/

/-- A bus read returns the byte and changes nothing, or latches a condition and nothing else. -/
theorem busRead_cases (a : Word) (s : State) :
    (readable a = true ∧ busRead a s = .ok (s.peek a) s) ∨
    (readable a = false ∧ busRead a s = .raised (s.raise (.illegalMemoryAccess a .read))) := by
  cases h : readable a
  · exact .inr ⟨rfl, busRead_raised s h⟩
  · exact .inl ⟨rfl, busRead_ok s h⟩

/-- A bus write stores the byte, or latches a condition and nothing else. -/
theorem busWrite_cases (a : Word) (v : Byte) (s : State) :
    (writable a = true ∧ busWrite a v s = .ok () (s.poke a v)) ∨
    (writable a = false ∧ busWrite a v s = .raised (s.raise (.illegalMemoryAccess a .write))) := by
  cases h : writable a
  · exact .inr ⟨rfl, busWrite_raised v s h⟩
  · exact .inl ⟨rfl, busWrite_ok v s h⟩

/-- `Push16` ends in one of three states. -/
theorem push16_cases (v : Word) (s : State) :
    push16 v s = .ok ()
      { ((s.poke (s.sp - 1) (hiByte v)).poke (s.sp - 2) (loByte v)) with sp := s.sp - 2 } ∧
        writable (s.sp - 1) = true ∧ writable (s.sp - 2) = true ∨
    push16 v s = .raised ({ s with sp := s.sp - 1 }.raise
      (.illegalMemoryAccess (s.sp - 1) .write)) ∧ writable (s.sp - 1) = false ∨
    push16 v s = .raised ({ (s.poke (s.sp - 1) (hiByte v)) with sp := s.sp - 2 }.raise
      (.illegalMemoryAccess (s.sp - 2) .write)) ∧
        writable (s.sp - 1) = true ∧ writable (s.sp - 2) = false := by
  cases h1 : writable (s.sp - 1)
  · exact .inr (.inl ⟨push16_raised_first v s h1, rfl⟩)
  · cases h2 : writable (s.sp - 2)
    · exact .inr (.inr ⟨push16_raised_second v s h1 h2, rfl, rfl⟩)
    · exact .inl ⟨push16_ok v s h1 h2, rfl, rfl⟩

/-- `Pop16` ends in one of three states. -/
theorem pop16_cases (s : State) :
    pop16 s = .ok (mkWord (s.peek (s.sp + 1)) (s.peek s.sp)) { s with sp := s.sp + 2 } ∨
    pop16 s = .raised (s.raise (.illegalMemoryAccess s.sp .read)) ∨
    pop16 s = .raised ({ s with sp := s.sp + 1 }.raise
      (.illegalMemoryAccess (s.sp + 1) .read)) := by
  cases h1 : readable s.sp
  · exact .inr (.inl (pop16_raised_first s h1))
  · cases h2 : readable (s.sp + 1)
    · exact .inr (.inr (pop16_raised_second s h1 h2))
    · exact .inl (pop16_ok s h1 h2)

end Sys2Proof.Machine
end

