-- ==== Sys2Proof/Laws/Operands.lean ====
section
/-! SUPPORT. The operand forms: what reading and writing each one does. -/

namespace Sys2Proof.Machine

/-- Reading an operand gives its value and changes nothing, or raises at HL. -/
theorem readR8_cases (r : R8) (s : State) :
    readR8 r s = .ok (r8Value r s) s ∨
    (r = .hlInd ∧ readable s.hl = false ∧
      readR8 r s = .raised (s.raise (.illegalMemoryAccess s.hl .read))) := by
  cases r
  case hlInd =>
    rcases busRead_cases s.hl s with ⟨_, h⟩ | ⟨hr, h⟩
    · exact .inl h
    · exact .inr ⟨rfl, hr, h⟩
  all_goals exact .inl rfl

theorem readR8_ok (r : R8) (s : State) (h : r = .hlInd → readable s.hl = true) :
    readR8 r s = .ok (r8Value r s) s := by
  cases r
  case hlInd => exact busRead_ok s (h rfl)
  all_goals rfl

/-- Writing an operand stores it, or raises at HL. -/
theorem writeR8_cases (r : R8) (v : Byte) (s : State) :
    writeR8 r v s = .ok () (r8Set r v s) ∨
    (r = .hlInd ∧ writable s.hl = false ∧
      writeR8 r v s = .raised (s.raise (.illegalMemoryAccess s.hl .write))) := by
  cases r
  case hlInd =>
    rcases busWrite_cases s.hl v s with ⟨_, h⟩ | ⟨hr, h⟩
    · exact .inl h
    · exact .inr ⟨rfl, hr, h⟩
  all_goals exact .inl rfl

theorem writeR8_ok (r : R8) (v : Byte) (s : State) (h : r = .hlInd → writable s.hl = true) :
    writeR8 r v s = .ok () (r8Set r v s) := by
  cases r
  case hlInd => exact busWrite_ok v s (h rfl)
  all_goals rfl

/-! ## Pairs read back what was written (R28) -/

@[simp] theorem setBc_bc (s : State) (v : Word) : (s.setBc v).bc = v := by simp [State.bc]

@[simp] theorem setDe_de (s : State) (v : Word) : (s.setDe v).de = v := by simp [State.de]

@[simp] theorem setHl_hl (s : State) (v : Word) : (s.setHl v).hl = v := by simp [State.hl]

/-- The low nibble of F reads as zero (R24). -/
theorem flagByte_low (s : State) : s.flagByte &&& 0x0F = 0 := by
  unfold State.flagByte
  generalize s.fz = z, s.fn = n, s.fh = h, s.fc = c
  revert z n h c; decide

end Sys2Proof.Machine
end

