-- ==== Sys2Proof/Laws/PerInstr.lean ====
section
/-! SUPPORT. Facts about every instruction as syntax, one lemma per constructor. -/

namespace Sys2Proof.Laws.EncodedLength

/-- An instruction has as many bytes as its row of the opcode table says (R130, R133). -/
def Statement (i : Instr) : Prop := (encode i).length = i.row.format.length

theorem nop : Statement (.nop) := rfl
theorem ldN16Sp (n : Word) : Statement (.ldN16Sp n) := rfl
theorem stop (n : Byte) : Statement (.stop n) := rfl
theorem jr (e : Byte) : Statement (.jr e) := rfl
theorem jrCc (cc : Cond) (e : Byte) : Statement (.jrCc cc e) := rfl
theorem ldR16N16 (r : R16) (n : Word) : Statement (.ldR16N16 r n) := rfl
theorem addHlR16 (r : R16) : Statement (.addHlR16 r) := rfl
theorem ldR16MemA (r : R16Mem) : Statement (.ldR16MemA r) := rfl
theorem ldAR16Mem (r : R16Mem) : Statement (.ldAR16Mem r) := rfl
theorem incR16 (r : R16) : Statement (.incR16 r) := rfl
theorem decR16 (r : R16) : Statement (.decR16 r) := rfl
theorem incR8 (r : R8) : Statement (.incR8 r) := rfl
theorem decR8 (r : R8) : Statement (.decR8 r) := rfl
theorem ldR8N8 (r : R8) (n : Byte) : Statement (.ldR8N8 r n) := rfl
theorem rlca : Statement (.rlca) := rfl
theorem rrca : Statement (.rrca) := rfl
theorem rla : Statement (.rla) := rfl
theorem rra : Statement (.rra) := rfl
theorem daa : Statement (.daa) := rfl
theorem cpl : Statement (.cpl) := rfl
theorem scf : Statement (.scf) := rfl
theorem ccf : Statement (.ccf) := rfl
theorem halt : Statement (.halt) := rfl
theorem ldR8R8 (dst src : R8) : Statement (.ldR8R8 dst src) := rfl
theorem addAR8 (r : R8) : Statement (.addAR8 r) := rfl
theorem adcAR8 (r : R8) : Statement (.adcAR8 r) := rfl
theorem subAR8 (r : R8) : Statement (.subAR8 r) := rfl
theorem sbcAR8 (r : R8) : Statement (.sbcAR8 r) := rfl
theorem andAR8 (r : R8) : Statement (.andAR8 r) := rfl
theorem xorAR8 (r : R8) : Statement (.xorAR8 r) := rfl
theorem orAR8 (r : R8) : Statement (.orAR8 r) := rfl
theorem cpAR8 (r : R8) : Statement (.cpAR8 r) := rfl
theorem addAN8 (n : Byte) : Statement (.addAN8 n) := rfl
theorem adcAN8 (n : Byte) : Statement (.adcAN8 n) := rfl
theorem subAN8 (n : Byte) : Statement (.subAN8 n) := rfl
theorem sbcAN8 (n : Byte) : Statement (.sbcAN8 n) := rfl
theorem andAN8 (n : Byte) : Statement (.andAN8 n) := rfl
theorem xorAN8 (n : Byte) : Statement (.xorAN8 n) := rfl
theorem orAN8 (n : Byte) : Statement (.orAN8 n) := rfl
theorem cpAN8 (n : Byte) : Statement (.cpAN8 n) := rfl
theorem retCc (cc : Cond) : Statement (.retCc cc) := rfl
theorem ret : Statement (.ret) := rfl
theorem reti : Statement (.reti) := rfl
theorem jpCcN16 (cc : Cond) (n : Word) : Statement (.jpCcN16 cc n) := rfl
theorem jpN16 (n : Word) : Statement (.jpN16 n) := rfl
theorem jpHl : Statement (.jpHl) := rfl
theorem callCcN16 (cc : Cond) (n : Word) : Statement (.callCcN16 cc n) := rfl
theorem callN16 (n : Word) : Statement (.callN16 n) := rfl
theorem rst (tgt : Fin 8) : Statement (.rst tgt) := rfl
theorem pop (r : R16Stk) : Statement (.pop r) := rfl
theorem push (r : R16Stk) : Statement (.push r) := rfl
theorem prefixCb : Statement (.prefixCb) := rfl
theorem ldhN8A (n : Byte) : Statement (.ldhN8A n) := rfl
theorem ldhAN8 (n : Byte) : Statement (.ldhAN8 n) := rfl
theorem ldhCA : Statement (.ldhCA) := rfl
theorem ldhAC : Statement (.ldhAC) := rfl
theorem ldN16A (n : Word) : Statement (.ldN16A n) := rfl
theorem ldAN16 (n : Word) : Statement (.ldAN16 n) := rfl
theorem addSpE8 (e : Byte) : Statement (.addSpE8 e) := rfl
theorem ldHlSpE8 (e : Byte) : Statement (.ldHlSpE8 e) := rfl
theorem ldSpHl : Statement (.ldSpHl) := rfl
theorem di : Statement (.di) := rfl
theorem ei : Statement (.ei) := rfl
theorem rlcR8 (r : R8) : Statement (.rlcR8 r) := rfl
theorem rrcR8 (r : R8) : Statement (.rrcR8 r) := rfl
theorem rlR8 (r : R8) : Statement (.rlR8 r) := rfl
theorem rrR8 (r : R8) : Statement (.rrR8 r) := rfl
theorem slaR8 (r : R8) : Statement (.slaR8 r) := rfl
theorem sraR8 (r : R8) : Statement (.sraR8 r) := rfl
theorem swapR8 (r : R8) : Statement (.swapR8 r) := rfl
theorem srlR8 (r : R8) : Statement (.srlR8 r) := rfl
theorem bitU3R8 (u : Fin 8) (r : R8) : Statement (.bitU3R8 u r) := rfl
theorem resU3R8 (u : Fin 8) (r : R8) : Statement (.resU3R8 u r) := rfl
theorem setU3R8 (u : Fin 8) (r : R8) : Statement (.setU3R8 u r) := rfl

end Sys2Proof.Laws.EncodedLength
end

