-- ==== Sys2Proof/Laws/Run.lean ====
section
/-! SUPPORT. The end of a run: what it is, that it has ended, and that there is at most one. -/

namespace Sys2Proof.Machine

theorem runToEnd_of_ended (n : Nat) (s : State) (h : s.ended = true) : runToEnd n s = some s := by
  cases n <;> simp [runToEnd, h]

theorem runToEnd_of_next (n : Nat) (s t : State) (h : s.ended = false) (ht : step s = .next t) :
    runToEnd (n + 1) s = runToEnd n t := by
  simp [runToEnd, h, ht]

/-- A run that reaches its end is there already, or takes a step and goes on. -/
theorem runToEnd_cases (n : Nat) (s e : State) (h : runToEnd n s = some e) :
    (s.ended = true ∧ e = s) ∨
    (s.ended = false ∧ ∃ m t, n = m + 1 ∧ step s = .next t ∧ runToEnd m t = some e) := by
  cases hs : s.ended
  · right
    cases n with
    | zero => simp [runToEnd, hs] at h
    | succ m =>
      cases ht : step s with
      | next t => exact ⟨rfl, m, t, rfl, rfl, by rwa [runToEnd_of_next m s t hs ht] at h⟩
      | fault f => simp [runToEnd, hs, ht] at h
      | refused r => simp [runToEnd, hs, ht] at h
  · left
    rw [runToEnd_of_ended n s hs] at h
    exact ⟨rfl, (Option.some.inj h).symm⟩

/-- What holds of a state and is kept by every step holds at the end of its run. -/
theorem runToEnd_induct (P : State → Prop) (hstep : ∀ s t, P s → step s = .next t → P t)
    (n : Nat) (s e : State) (hs : P s) (h : runToEnd n s = some e) : P e := by
  induction n generalizing s with
  | zero =>
    rcases runToEnd_cases 0 s e h with ⟨-, rfl⟩ | ⟨-, m, t, hm, -⟩
    · exact hs
    · exact absurd hm (by omega)
  | succ n ih =>
    rcases runToEnd_cases (n + 1) s e h with ⟨-, rfl⟩ | ⟨-, m, t, hm, ht, hr⟩
    · exact hs
    · obtain rfl : n = m := by omega
      exact ih t (hstep s t hs ht) hr

/-- The end of a run has ended (R447). -/
theorem runToEnd_ended (n : Nat) (s e : State) (h : runToEnd n s = some e) : e.ended = true := by
  induction n generalizing s with
  | zero =>
    rcases runToEnd_cases 0 s e h with ⟨hs, rfl⟩ | ⟨-, m, t, hm, -⟩
    · exact hs
    · exact absurd hm (by omega)
  | succ n ih =>
    rcases runToEnd_cases (n + 1) s e h with ⟨hs, rfl⟩ | ⟨-, m, t, hm, -, hr⟩
    · exact hs
    · obtain rfl : n = m := by omega
      exact ih t hr

/-- More fuel finds the same end. -/
theorem runToEnd_mono (n m : Nat) (s e : State) (hnm : n ≤ m) (h : runToEnd n s = some e) :
    runToEnd m s = some e := by
  induction m generalizing n s with
  | zero => rwa [show n = 0 by omega] at h
  | succ m ih =>
    rcases runToEnd_cases n s e h with ⟨hs, rfl⟩ | ⟨hs, k, t, hk, ht, hr⟩
    · exact runToEnd_of_ended _ _ hs
    · rw [runToEnd_of_next m s t hs ht]
      exact ih k t (by omega) hr

/-- A run has at most one end. -/
theorem runEnds_unique (s e e' : State) (h : RunEnds s e) (h' : RunEnds s e') : e = e' := by
  obtain ⟨n, h⟩ := h
  obtain ⟨m, h'⟩ := h'
  have h1 := runToEnd_mono n (max n m) s e (by omega) h
  have h2 := runToEnd_mono m (max n m) s e' (by omega) h'
  exact Option.some.inj (h1.symm.trans h2)

/-- A run that completes ends halted. -/
theorem runCompletes_halted (s e : State) (h : RunCompletes s e) : e.halted = true := by
  obtain ⟨⟨n, hn⟩, hf⟩ := h
  simpa [State.ended, hf] using runToEnd_ended n s e hn

end Sys2Proof.Machine
end

