-- ==== Sys2Proof/Laws/Step.lean ====
section
/-! SUPPORT. What the pieces of a step around an instruction's rule can do: the interrupt check and
entry, a halted core, and the timing unit within a line. -/

namespace Sys2Proof.Machine

/-- With no fault latched, a step is decided by the interrupt check (R446). -/
theorem step_of_no_fault (s : State) (h : s.fault = none) :
    step s = match interruptCheck s with
      | .raised t => .next t
      | .ok true t => .next (ppuStep t.cost t)
      | .ok false t => if t.halted then .next (idleStep t) else stepInstr t := by
  rcases hi : interruptCheck s with ⟨_ | _, t⟩ | t <;> simp only [step, h, hi]

/-! ## The interrupt check -/

/-- With the extension off, or no source pending and enabled, the check changes nothing. -/
theorem interruptCheck_idle (s : State) (h : s.cfg.intDispatch = false ∨ s.pendingEnabled = 0) :
    interruptCheck s = .ok false s := by
  unfold interruptCheck
  rcases h with h | h <;> simp [h]

/-- With `ime` false the check only ends the halted state (R431). -/
theorem interruptCheck_wake (s : State) (hd : s.cfg.intDispatch = true) (hp : s.pendingEnabled ≠ 0)
    (h : s.ime = false) : interruptCheck s = .ok false { s with halted := false } := by
  unfold interruptCheck
  rw [if_pos (by simpa [hd] using hp), if_neg (by simp [h])]

/-- Outside the halted state the check changes nothing unless an interrupt is taken (R430). -/
theorem interruptCheck_not_taken (s : State) (hh : s.halted = false)
    (h : s.cfg.intDispatch = false ∨ s.pendingEnabled = 0 ∨ s.ime = false) :
    interruptCheck s = .ok false s := by
  have e : { s with halted := false } = s := by rw [← hh]
  rcases h with h | h | h
  · exact interruptCheck_idle s (.inl h)
  · exact interruptCheck_idle s (.inr h)
  · unfold interruptCheck
    rw [if_neg (by simp [h] : ¬ s.ime = true), e, ite_self]

/-- With `ime` true the check takes the lowest source (R430). -/
theorem interruptCheck_take (s : State) (hd : s.cfg.intDispatch = true) (hp : s.pendingEnabled ≠ 0)
    (h : s.ime = true) : interruptCheck s =
      (enterInterrupt (lowestSource s.pendingEnabled) { s with halted := false }).bind
        fun _ s => .ok true s := by
  unfold interruptCheck
  rw [if_pos (by simpa [hd] using hp), if_pos h]

/-- Bit `j` of `pendingEnabled` is bit `j` of IE and of IF (R428). -/
theorem pendingEnabled_getLsbD (s : State) (j : Nat) (hj : j < 5) : s.pendingEnabled.getLsbD j =
    ((s.peek ieAddr).getLsbD j && (s.peek ifAddr).getLsbD j) := by
  have e : (0x1F : Byte).getLsbD j = true := by revert j; decide
  rw [State.pendingEnabled, BitVec.getLsbD_and, BitVec.getLsbD_and, e, Bool.and_true]

/-- The lowest source is the set bit below which none is set (R429). -/
theorem lowestSource_eq (q : Byte) (i : Nat) (hi : i < 5) (h : q.getLsbD i = true)
    (hl : ∀ j < i, q.getLsbD j = false) : lowestSource q = i := by
  unfold lowestSource
  rcases (by omega : i = 0 ∨ i = 1 ∨ i = 2 ∨ i = 3 ∨ i = 4) with rfl | rfl | rfl | rfl | rfl <;>
    simp only [h, hl, Nat.reduceLT, if_true, Bool.false_eq_true, if_false]

/-- The state of an interrupt entry before its stack writes: `ime` off, the IF bit cleared (R430). -/
def State.acknowledge (s : State) (i : Nat) : State :=
  { (s.poke ifAddr (s.peek ifAddr &&& ~~~(1#8 <<< i))) with ime := false }

section

variable (s : State) (i : Nat)

@[simp] theorem State.acknowledge_a : (s.acknowledge i).a = s.a := rfl
@[simp] theorem State.acknowledge_b : (s.acknowledge i).b = s.b := rfl
@[simp] theorem State.acknowledge_c : (s.acknowledge i).c = s.c := rfl
@[simp] theorem State.acknowledge_d : (s.acknowledge i).d = s.d := rfl
@[simp] theorem State.acknowledge_e : (s.acknowledge i).e = s.e := rfl
@[simp] theorem State.acknowledge_h : (s.acknowledge i).h = s.h := rfl
@[simp] theorem State.acknowledge_l : (s.acknowledge i).l = s.l := rfl
@[simp] theorem State.acknowledge_fz : (s.acknowledge i).fz = s.fz := rfl
@[simp] theorem State.acknowledge_fn : (s.acknowledge i).fn = s.fn := rfl
@[simp] theorem State.acknowledge_fh : (s.acknowledge i).fh = s.fh := rfl
@[simp] theorem State.acknowledge_fc : (s.acknowledge i).fc = s.fc := rfl
@[simp] theorem State.acknowledge_sp : (s.acknowledge i).sp = s.sp := rfl
@[simp] theorem State.acknowledge_pc : (s.acknowledge i).pc = s.pc := rfl
@[simp] theorem State.acknowledge_imePending : (s.acknowledge i).imePending = s.imePending := rfl
@[simp] theorem State.acknowledge_halted : (s.acknowledge i).halted = s.halted := rfl
@[simp] theorem State.acknowledge_fault : (s.acknowledge i).fault = s.fault := rfl
@[simp] theorem State.acknowledge_dots : (s.acknowledge i).dots = s.dots := rfl
@[simp] theorem State.acknowledge_ly : (s.acknowledge i).ly = s.ly := rfl
@[simp] theorem State.acknowledge_events : (s.acknowledge i).events = s.events := rfl
@[simp] theorem State.acknowledge_cost : (s.acknowledge i).cost = s.cost := rfl
@[simp] theorem State.acknowledge_cfg : (s.acknowledge i).cfg = s.cfg := rfl
@[simp] theorem State.acknowledge_ime : (s.acknowledge i).ime = false := rfl

end

theorem acknowledge_peek (s : State) (i : Nat) (a : Word) : (s.acknowledge i).peek a =
    if a = ifAddr then s.peek ifAddr &&& ~~~(1#8 <<< i) else s.peek a := peek_poke _ _ _ _

/-- Clearing bit `i` leaves every other bit. -/
theorem getLsbD_clear (b : Byte) (i k : Nat) (hk : k < 8) :
    (b &&& ~~~(1#8 <<< i)).getLsbD k = (b.getLsbD k && decide (k ≠ i)) := by
  simp only [BitVec.getLsbD_and, BitVec.getLsbD_not, BitVec.getLsbD_shiftLeft, BitVec.getLsbD_one, hk]
  congr 1
  rcases Nat.lt_trichotomy k i with h | h | h
  · simp [h, h.ne]
  · simp [h]
  · have : ¬ k < i := by omega
    have : k - i ≠ 0 := by omega
    simp [*, h.ne']

/-- An interrupt entry ends in one of three states, as its two stack writes go. -/
theorem enterInterrupt_cases (i : Nat) (s : State) :
    enterInterrupt i s = .ok ()
      { (((s.acknowledge i).poke (s.sp - 1) (hiByte s.pc)).poke (s.sp - 2) (loByte s.pc)) with
        sp := s.sp - 2, pc := 0x0040 + BitVec.ofNat 16 (8 * i),
        cost := cyclesOf s.cfg .interruptEntry } ∧
        writable (s.sp - 1) = true ∧ writable (s.sp - 2) = true ∨
    enterInterrupt i s = .raised ({ (s.acknowledge i) with sp := s.sp - 1 }.raise
      (.illegalMemoryAccess (s.sp - 1) .write)) ∧ writable (s.sp - 1) = false ∨
    enterInterrupt i s = .raised
      ({ ((s.acknowledge i).poke (s.sp - 1) (hiByte s.pc)) with sp := s.sp - 2 }.raise
        (.illegalMemoryAccess (s.sp - 2) .write)) ∧
        writable (s.sp - 1) = true ∧ writable (s.sp - 2) = false := by
  have e : enterInterrupt i s = (push16 (s.acknowledge i).pc (s.acknowledge i)).bind fun _ s =>
    .ok () { s with pc := 0x0040 + BitVec.ofNat 16 (8 * i), cost := cyclesOf s.cfg .interruptEntry } := rfl
  rw [e]
  rcases push16_cases (s.acknowledge i).pc (s.acknowledge i) with ⟨h, hw⟩ | ⟨h, hw⟩ | ⟨h, hw⟩
  · exact .inl ⟨by rw [h]; rfl, hw⟩
  · exact .inr (.inl ⟨by rw [h]; rfl, hw⟩)
  · exact .inr (.inr ⟨by rw [h]; rfl, hw⟩)

/-! ## The timing unit -/

/-- Short of the end of the line only the dots move (R437). -/
theorem ppuStep_within_line (c : Nat) (s : State) (h : s.dots + 4 * c < 456) :
    ppuStep c s = { s with dots := s.dots + 4 * c } := by
  unfold ppuStep; rw [Nat.div_eq_of_lt h]; rfl

/-- `AdvanceLine` leaves the dots (R438). -/
@[simp] theorem advanceLine_dots (s : State) : (advanceLine s).dots = s.dots := by
  have h1 : (renderPhases s).dots = s.dots := by unfold renderPhases; split <;> rfl
  have h2 (t : State) : (requestVBlank t).dots = t.dots := by unfold requestVBlank; split <;> rfl
  have h3 (t : State) : (wrapFrame t).dots = t.dots := by unfold wrapFrame; split <;> rfl
  show (wrapFrame (requestVBlank _)).dots = _
  rw [h3, h2]; exact h1

/-- At the end of a line one line is advanced, and the loop goes on with the dots left (R437). -/
theorem ppuStep_line (c : Nat) (s : State) (h : 456 ≤ s.dots + 4 * c) :
    ppuStep c s = ppuStep 0 (advanceLine { s with dots := s.dots + 4 * c - 456 }) := by
  have e : (s.dots + 4 * c) / 456 = (s.dots + 4 * c - 456) / 456 + 1 := by omega
  have h0 (t : State) : ppuStep 0 t = drainDots (t.dots / 456) t := by
    simp only [ppuStep, Nat.mul_zero, Nat.add_zero]
  rw [h0, advanceLine_dots, ppuStep, e, drainDots, if_pos h]

end Sys2Proof.Machine
end

