-- ==== Sys2Proof/Tests/Slice0.lean ====
section
/-! SUPPORT. Tests: ill-formed terms, words written out from the templates of R123 to R126, single steps
whose expected results are the vectors of 95_test_vectors.md (their ids stand in the names), and for
every statement with hypotheses a witness that meets them. -/

namespace Sys2Proof.Tests

open Sys2Proof.Machine Sys2Proof.Claims

/-! ## Well-formedness -/

theorem test_wellFormed_refuses_ld_hl_hl : (Instr.ldR8R8 .hlInd .hlInd).wellFormed = false := by decide

theorem test_wellFormed_refuses_prefix_alone : Instr.prefixCb.wellFormed = false := by decide

theorem test_wellFormed_accepts_one_hl : (Instr.ldR8R8 .hlInd .a).wellFormed = true := by decide

/-! ## Decoding: every row, bit by bit from its template -/

/-- The bytes decode to the instruction, all of them used. -/
def decodes (bytes : List Byte) (i : Instr) : Bool :=
  match decode bytes with
  | .ok (j, []) => decide (j = i)
  | .ok (_, _ :: _) => false
  | .error _ => false

/-- The first byte is refused. -/
def rejects (op : Byte) : Bool :=
  match decode [op, 0, 0] with
  | .ok _ => false
  | .error e => decide (e = .illegalOpcode op)

/-- R123: block 0. -/
theorem test_decode_block0 : (
    decodes [0b00000000] .nop && decodes [0b00001000, 0x34, 0x12] (.ldN16Sp 0x1234) &&
    decodes [0b00010000, 0x00] (.stop 0) && decodes [0b00011000, 0xFE] (.jr 0xFE) &&
    decodes [0b00100000, 0x05] (.jrCc .nz 0x05) && decodes [0b00101000, 0x05] (.jrCc .z 0x05) &&
    decodes [0b00110000, 0x05] (.jrCc .nc 0x05) && decodes [0b00111000, 0x05] (.jrCc .c 0x05) &&
    decodes [0b00000001, 0x34, 0x12] (.ldR16N16 .bc 0x1234) &&
    decodes [0b00110001, 0xFE, 0xFF] (.ldR16N16 .sp 0xFFFE) && decodes [0b00011001] (.addHlR16 .de) &&
    decodes [0b00000010] (.ldR16MemA .bc) && decodes [0b00010010] (.ldR16MemA .de) &&
    decodes [0b00100010] (.ldR16MemA .hlInc) && decodes [0b00110010] (.ldR16MemA .hlDec) &&
    decodes [0b00101010] (.ldAR16Mem .hlInc) && decodes [0b00111010] (.ldAR16Mem .hlDec) &&
    decodes [0b00100011] (.incR16 .hl) && decodes [0b00111011] (.decR16 .sp) &&
    decodes [0b00111100] (.incR8 .a) && decodes [0b00110100] (.incR8 .hlInd) &&
    decodes [0b00000101] (.decR8 .b) && decodes [0b00001110, 0x99] (.ldR8N8 .c 0x99)) = true := by decide

/-- R123: the one-byte instructions of block 0. -/
theorem test_decode_block0_fixed : (
    decodes [0b00000111] .rlca && decodes [0b00001111] .rrca && decodes [0b00010111] .rla &&
    decodes [0b00011111] .rra && decodes [0b00100111] .daa && decodes [0b00101111] .cpl &&
    decodes [0b00110111] .scf && decodes [0b00111111] .ccf) = true := by decide

/-- R124: blocks 1 and 2. -/
theorem test_decode_block12 : (
    decodes [0b01110110] .halt && decodes [0b01000110] (.ldR8R8 .b .hlInd) &&
    decodes [0b01110101] (.ldR8R8 .hlInd .l) && decodes [0b01010011] (.ldR8R8 .d .e) &&
    decodes [0b10000001] (.addAR8 .c) && decodes [0b10001011] (.adcAR8 .e) &&
    decodes [0b10010011] (.subAR8 .e) && decodes [0b10011100] (.sbcAR8 .h) &&
    decodes [0b10100101] (.andAR8 .l) && decodes [0b10101111] (.xorAR8 .a) &&
    decodes [0b10110110] (.orAR8 .hlInd) && decodes [0b10111000] (.cpAR8 .b)) = true := by decide

/-- R125: arithmetic and control flow of block 3. -/
theorem test_decode_block3_alu_control : (
    decodes [0b11000110, 0x01] (.addAN8 1) && decodes [0b11001110, 0x3B] (.adcAN8 0x3B) &&
    decodes [0b11010110, 0x0F] (.subAN8 0x0F) && decodes [0b11011110, 0x3A] (.sbcAN8 0x3A) &&
    decodes [0b11100110, 0x38] (.andAN8 0x38) && decodes [0b11101110, 0x0F] (.xorAN8 0x0F) &&
    decodes [0b11110110, 0x03] (.orAN8 0x03) && decodes [0b11111110, 0x2F] (.cpAN8 0x2F) &&
    decodes [0b11001000] (.retCc .z) && decodes [0b11001001] .ret && decodes [0b11011001] .reti &&
    decodes [0b11010010, 0x50, 0x01] (.jpCcN16 .nc 0x0150) &&
    decodes [0b11000011, 0x50, 0x01] (.jpN16 0x0150) && decodes [0b11101001] .jpHl &&
    decodes [0b11011100, 0x34, 0x12] (.callCcN16 .c 0x1234) &&
    decodes [0b11001101, 0x34, 0x12] (.callN16 0x1234) && decodes [0b11101111] (.rst 5) &&
    decodes [0b11010001] (.pop .de) && decodes [0b11110101] (.push .af)) = true := by decide

/-- R125: loads and the rest of block 3; the prefix byte alone (R295). -/
theorem test_decode_block3_loads : (
    decodes [0b11001011] .prefixCb && decodes [0b11100000, 0x44] (.ldhN8A 0x44) &&
    decodes [0b11110000, 0x44] (.ldhAN8 0x44) && decodes [0b11100010] .ldhCA &&
    decodes [0b11110010] .ldhAC && decodes [0b11101010, 0x23, 0xC1] (.ldN16A 0xC123) &&
    decodes [0b11111010, 0x80, 0xFF] (.ldAN16 0xFF80) && decodes [0b11101000, 0xFB] (.addSpE8 0xFB) &&
    decodes [0b11111000, 0x02] (.ldHlSpE8 0x02) && decodes [0b11111001] .ldSpHl &&
    decodes [0b11110011] .di && decodes [0b11111011] .ei) = true := by decide

/-- R126: the table behind the prefix byte. -/
theorem test_decode_cb : (
    decodes [0xCB, 0b00000110] (.rlcR8 .hlInd) && decodes [0xCB, 0b00001001] (.rrcR8 .c) &&
    decodes [0xCB, 0b00010101] (.rlR8 .l) && decodes [0xCB, 0b00011111] (.rrR8 .a) &&
    decodes [0xCB, 0b00100010] (.slaR8 .d) && decodes [0xCB, 0b00101111] (.sraR8 .a) &&
    decodes [0xCB, 0b00110110] (.swapR8 .hlInd) && decodes [0xCB, 0b00111000] (.srlR8 .b) &&
    decodes [0xCB, 0b01111110] (.bitU3R8 7 .hlInd) && decodes [0xCB, 0b10111111] (.resU3R8 7 .a) &&
    decodes [0xCB, 0b11001011] (.setU3R8 1 .e)) = true := by decide

/-- R127: the eleven illegal bytes. -/
theorem test_decode_illegal : ([0xD3, 0xDB, 0xDD, 0xE3, 0xE4, 0xEB, 0xEC, 0xED, 0xF4, 0xFC, 0xFD].all
    rejects) = true := by decide

/-- The host's numbering: the first byte in bits 7 to 0. -/
theorem test_decodeTableWord : decodeTableWord 24 0x123431 = some (.ldR16N16 .sp 0x1234) ∧
    decodeTableWord 8 0x31 = some (.ldR16N16 .sp 0) ∧
    decodeTableWord 16 0x36CB = some (.swapR8 .hlInd) ∧ decodeTableWord 8 0xD3 = none := by decide

/-! ## Single steps: vectors of 95_test_vectors.md -/

/-- The start state of a vector: reset, with bytes at PC. -/
def start (pc : Word) (bytes : List Byte) : State :=
  match bytes with
  | [] => { State.reset with pc := pc }
  | v :: rest => { ((start (pc + 1) rest).poke pc v) with pc := pc }

/-- The step ends in the state the vector gives, at its cost, the timing unit stepped from 0 dots. -/
def steps (s : State) (cost : Nat) (f : State → State) : Bool :=
  match step s with
  | .next t => decide (t = { (f s) with cost := cost, dots := 4 * cost })
  | .fault _ => false
  | .refused _ => false

/-- The step raises: the timing unit is not stepped. -/
def raises (s : State) (f : State → State) : Bool :=
  match step s with
  | .next t => decide (t = f s)
  | .fault _ => false
  | .refused _ => false

/-- A1: `ADD A,B`. -/
theorem test_addAR8_A1 :
    steps { (start 0x0100 [0x80]) with a := 0x3A, b := 0xC6 } 1
    (fun s => { s with
      a := 0x00, fz := true, fn := false, fh := true, fc := true, pc := 0x0101 }) = true := by decide

/-- A5: `ADD A,[HL]`. -/
theorem test_addAR8_A5 :
    steps { ((start 0x0100 [0x86]).poke 0xC000 0x01) with a := 0x0F, h := 0xC0, l := 0x00 } 2
    (fun s => { s with
      a := 0x10, fz := false, fn := false, fh := true, fc := false, pc := 0x0101 }) = true := by decide

/-- A6: `ADC A,E`. -/
theorem test_adcAR8_A6 :
    steps { (start 0x0100 [0x8B]) with
      a := 0xE1, e := 0x0F, fz := false, fn := false, fh := false, fc := true } 1
    (fun s => { s with
      a := 0xF1, fz := false, fn := false, fh := true, fc := false, pc := 0x0101 }) = true := by decide

/-- A12: `SUB A,E`. -/
theorem test_subAR8_A12 :
    steps { (start 0x0100 [0x93]) with a := 0x3E, e := 0x3E } 1
    (fun s => { s with
      a := 0x00, fz := true, fn := true, fh := false, fc := false, pc := 0x0101 }) = true := by decide

/-- A16: `SBC A,A`. -/
theorem test_sbcAR8_A16 :
    steps { (start 0x0100 [0x9F]) with a := 0x77, fz := false, fn := false, fh := false, fc := true } 1
    (fun s => { s with
      a := 0xFF, fz := false, fn := true, fh := true, fc := true, pc := 0x0101 }) = true := by decide

/-- A20: `AND A,L`. -/
theorem test_andAR8_A20 :
    steps { (start 0x0100 [0xA5]) with a := 0x5A, l := 0x3F } 1
    (fun s => { s with
      a := 0x1A, fz := false, fn := false, fh := true, fc := false, pc := 0x0101 }) = true := by decide

/-- A22: `XOR A,A`. -/
theorem test_xorAR8_A22 :
    steps { (start 0x0100 [0xAF]) with a := 0x5A, fz := true, fn := true, fh := true, fc := true } 1
    (fun s => { s with
      a := 0x00, fz := true, fn := false, fh := false, fc := false, pc := 0x0101 }) = true := by decide

/-- A24: `OR A,[HL]`. -/
theorem test_orAR8_A24 :
    steps { ((start 0x0100 [0xB6]).poke 0xC000 0x0F) with a := 0x5A, h := 0xC0, l := 0x00 } 2
    (fun s => { s with a := 0x5F, pc := 0x0101 }) = true := by decide

/-- A26: `CP A,B`. -/
theorem test_cpAR8_A26 :
    steps { (start 0x0100 [0xB8]) with a := 0x2D, b := 0x3F } 1
    (fun s => { s with fz := false, fn := true, fh := true, fc := true, pc := 0x0101 }) = true := by decide

/-- A27: `CP A,B`. -/
theorem test_cpAR8_A27 :
    steps { (start 0x0100 [0xB8]) with a := 0x2D, b := 0x0F } 1
    (fun s => { s with fz := false, fn := true, fh := true, fc := false, pc := 0x0101 }) = true := by decide

/-- A3: `ADD A,0x01`. -/
theorem test_addAN8_A3 :
    steps { (start 0x0100 [0xC6, 0x01]) with a := 0xFF } 2
    (fun s => { s with
      a := 0x00, fz := true, fn := false, fh := true, fc := true, pc := 0x0102 }) = true := by decide

/-- A10: `ADC A,0xFF`. -/
theorem test_adcAN8_A10 :
    steps { (start 0x0100 [0xCE, 0xFF]) with
      a := 0x00, fz := false, fn := false, fh := false, fc := true } 2
    (fun s => { s with fz := true, fn := false, fh := true, fc := true, pc := 0x0102 }) = true := by decide

/-- A13: `SUB A,0x0F`. -/
theorem test_subAN8_A13 :
    steps { (start 0x0100 [0xD6, 0x0F]) with a := 0x3E } 2
    (fun s => { s with
      a := 0x2F, fz := false, fn := true, fh := true, fc := false, pc := 0x0102 }) = true := by decide

/-- A17: `SBC A,0xFF`. -/
theorem test_sbcAN8_A17 :
    steps { (start 0x0100 [0xDE, 0xFF]) with
      a := 0x00, fz := false, fn := false, fh := false, fc := true } 2
    (fun s => { s with fz := true, fn := true, fh := true, fc := true, pc := 0x0102 }) = true := by decide

/-- A21: `AND A,0x00`. -/
theorem test_andAN8_A21 :
    steps { (start 0x0100 [0xE6, 0x00]) with
      a := 0xFF, fz := false, fn := false, fh := false, fc := true } 2
    (fun s => { s with
      a := 0x00, fz := true, fn := false, fh := true, fc := false, pc := 0x0102 }) = true := by decide

/-- A23: `XOR A,0x0F`. -/
theorem test_xorAN8_A23 :
    steps { (start 0x0100 [0xEE, 0x0F]) with a := 0xFF, fz := true, fn := true, fh := true, fc := true } 2
    (fun s => { s with
      a := 0xF0, fz := false, fn := false, fh := false, fc := false, pc := 0x0102 }) = true := by decide

/-- A25: `OR A,0x00`. -/
theorem test_orAN8_A25 :
    steps { (start 0x0100 [0xF6, 0x00]) with a := 0x00, fz := false, fn := true, fh := true, fc := true } 2
    (fun s => { s with
      fz := true, fn := false, fh := false, fc := false, pc := 0x0102 }) = true := by decide

/-- A29: `CP A,0x40`. -/
theorem test_cpAN8_A29 :
    steps { (start 0x0100 [0xFE, 0x40]) with a := 0x3C } 2
    (fun s => { s with fz := false, fn := true, fh := false, fc := true, pc := 0x0102 }) = true := by decide

/-- A32: `INC A`. -/
theorem test_incR8_A32 :
    steps { (start 0x0100 [0x3C]) with a := 0xFF, fz := false, fn := false, fh := false, fc := true } 1
    (fun s => { s with
      a := 0x00, fz := true, fn := false, fh := true, fc := true, pc := 0x0101 }) = true := by decide

/-- A34: `INC [HL]`. -/
theorem test_incR8_A34 :
    steps { ((start 0x0100 [0x34]).poke 0xC000 0x4F) with
      h := 0xC0, l := 0x00, fz := false, fn := false, fh := false, fc := true } 3
    (fun s => { (s.poke 0xC000 0x50) with
      fz := false, fn := false, fh := true, fc := true, pc := 0x0101 }) = true := by decide

/-- A37: `DEC B`. -/
theorem test_decR8_A37 :
    steps { (start 0x0100 [0x05]) with b := 0x10, fz := false, fn := false, fh := false, fc := true } 1
    (fun s => { s with
      b := 0x0F, fz := false, fn := true, fh := true, fc := true, pc := 0x0101 }) = true := by decide

/-- A40: `DAA`. -/
theorem test_daa_A40 :
    steps { (start 0x0100 [0x27]) with a := 0x9A, fz := false, fn := false, fh := false, fc := false } 1
    (fun s => { s with
      a := 0x00, fz := true, fn := false, fh := false, fc := true, pc := 0x0101 }) = true := by decide

/-- A41: `DAA`. -/
theorem test_daa_A41 :
    steps { (start 0x0100 [0x27]) with a := 0x00, fz := false, fn := true, fh := true, fc := true } 1
    (fun s => { s with
      a := 0x9A, fz := false, fn := true, fh := false, fc := true, pc := 0x0101 }) = true := by decide

/-- A49: `CPL`. -/
theorem test_cpl_A49 :
    steps { (start 0x0100 [0x2F]) with a := 0xFF, fz := true, fn := false, fh := false, fc := true } 1
    (fun s => { s with
      a := 0x00, fz := true, fn := true, fh := true, fc := true, pc := 0x0101 }) = true := by decide

/-- A50: `SCF`. -/
theorem test_scf_A50 :
    steps { (start 0x0100 [0x37]) with fz := true, fn := true, fh := true, fc := false } 1
    (fun s => { s with fz := true, fn := false, fh := false, fc := true, pc := 0x0101 }) = true := by decide

/-- A51: `CCF`. -/
theorem test_ccf_A51 :
    steps { (start 0x0100 [0x3F]) with fz := true, fn := true, fh := true, fc := true } 1
    (fun s => { s with
      fz := true, fn := false, fh := false, fc := false, pc := 0x0101 }) = true := by decide

/-- W1: `ADD HL,BC`. -/
theorem test_addHlR16_W1 :
    steps { (start 0x0100 [0x09]) with
      h := 0x8A, l := 0x23, b := 0x06, c := 0x05, fz := true, fn := false, fh := false, fc := false } 2
    (fun s => { s with
      h := 0x90, l := 0x28, fz := true, fn := false, fh := true, fc := false, pc := 0x0101 }) = true := by decide

/-- W5: `ADD HL,BC`. -/
theorem test_addHlR16_W5 :
    steps { (start 0x0100 [0x09]) with
      h := 0x10, l := 0x00, b := 0x10, c := 0x00, fz := false, fn := false, fh := false, fc := false } 2
    (fun s => { s with h := 0x20, pc := 0x0101 }) = true := by decide

/-- W7: `INC BC`. -/
theorem test_incR16_W7 :
    steps { (start 0x0100 [0x03]) with
      b := 0xFF, c := 0xFF, fz := false, fn := false, fh := false, fc := false } 2
    (fun s => { s with b := 0x00, c := 0x00, pc := 0x0101 }) = true := by decide

/-- W9: `DEC SP`. -/
theorem test_decR16_W9 :
    steps { (start 0x0100 [0x3B]) with sp := 0x0001, fz := false, fn := false, fh := false, fc := false } 2
    (fun s => { s with sp := 0x0000, pc := 0x0101 }) = true := by decide

/-- W14: `ADD SP,-1`. -/
theorem test_addSpE8_W14 :
    steps { (start 0x0100 [0xE8, 0xFF]) with sp := 0x0001 } 4
    (fun s => { s with
      fz := false, fn := false, fh := true, fc := true, sp := 0x0000, pc := 0x0102 }) = true := by decide

/-- W16: `ADD SP,-1`. -/
theorem test_addSpE8_W16 :
    steps { (start 0x0100 [0xE8, 0xFF]) with sp := 0x0100, cfg := { Config.standard with
      addspWideOverflow := true } } 4
    (fun s => { s with
      fz := false, fn := false, fh := true, fc := true, sp := 0x00FF, pc := 0x0102 }) = true := by decide

/-- W20: `LD HL,SP-128`. -/
theorem test_ldHlSpE8_W20 :
    steps { (start 0x0100 [0xF8, 0x80]) with sp := 0x0080 } 3
    (fun s => { s with
      fz := false, fn := false, fh := false, fc := true, pc := 0x0102 }) = true := by decide

/-- S2: `RLCA`. -/
theorem test_rlca_S2 :
    steps { (start 0x0100 [0x07]) with a := 0x00, fz := true, fn := true, fh := true, fc := true } 1
    (fun s => { s with
      fz := false, fn := false, fh := false, fc := false, pc := 0x0101 }) = true := by decide

/-- S3: `RRCA`. -/
theorem test_rrca_S3 :
    steps { (start 0x0100 [0x0F]) with a := 0x3B } 1
    (fun s => { s with
      a := 0x9D, fz := false, fn := false, fh := false, fc := true, pc := 0x0101 }) = true := by decide

/-- S5: `RLA`. -/
theorem test_rla_S5 :
    steps { (start 0x0100 [0x17]) with a := 0x80 } 1
    (fun s => { s with
      a := 0x00, fz := false, fn := false, fh := false, fc := true, pc := 0x0101 }) = true := by decide

/-- S7: `RRA`. -/
theorem test_rra_S7 :
    steps { (start 0x0100 [0x1F]) with a := 0x01, fz := false, fn := false, fh := false, fc := true } 1
    (fun s => { s with a := 0x80, pc := 0x0101 }) = true := by decide

/-- S9: `RLC B`. -/
theorem test_rlcR8_S9 :
    steps { (start 0x0100 [0xCB, 0x00]) with
      b := 0x00, fz := false, fn := false, fh := false, fc := true } 2
    (fun s => { s with
      fz := true, fn := false, fh := false, fc := false, pc := 0x0102 }) = true := by decide

/-- S30: `RLC [HL]`. -/
theorem test_rlcR8_S30 :
    raises { ((start 0x0100 [0xCB, 0x06]).poke 0x4000 0x81) with h := 0x40, l := 0x00 }
    (fun s => { s with
      pc := 0x0102, fault := some (.illegalMemoryAccess 0x4000 .write) }) = true := by decide

/-- S10: `RRC C`. -/
theorem test_rrcR8_S10 :
    steps { (start 0x0100 [0xCB, 0x09]) with c := 0x01 } 2
    (fun s => { s with
      c := 0x80, fz := false, fn := false, fh := false, fc := true, pc := 0x0102 }) = true := by decide

/-- S12: `RL L`. -/
theorem test_rlR8_S12 :
    steps { (start 0x0100 [0xCB, 0x15]) with
      l := 0x00, fz := false, fn := false, fh := false, fc := true } 2
    (fun s => { s with
      l := 0x01, fz := false, fn := false, fh := false, fc := false, pc := 0x0102 }) = true := by decide

/-- S14: `RR A`. -/
theorem test_rrR8_S14 :
    steps { (start 0x0100 [0xCB, 0x1F]) with
      a := 0x00, fz := false, fn := false, fh := false, fc := true } 2
    (fun s => { s with
      a := 0x80, fz := false, fn := false, fh := false, fc := false, pc := 0x0102 }) = true := by decide

/-- S16: `SLA D`. -/
theorem test_slaR8_S16 :
    steps { (start 0x0100 [0xCB, 0x22]) with d := 0xFF } 2
    (fun s => { s with
      d := 0xFE, fz := false, fn := false, fh := false, fc := true, pc := 0x0102 }) = true := by decide

/-- S17: `SRA A`. -/
theorem test_sraR8_S17 :
    steps { (start 0x0100 [0xCB, 0x2F]) with
      a := 0x8A, fz := false, fn := false, fh := false, fc := true } 2
    (fun s => { s with
      a := 0xC5, fz := false, fn := false, fh := false, fc := false, pc := 0x0102 }) = true := by decide

/-- S20: `SWAP [HL]`. -/
theorem test_swapR8_S20 :
    steps { ((start 0x0100 [0xCB, 0x36]).poke 0xC000 0xF0) with h := 0xC0, l := 0x00 } 4
    (fun s => { (s.poke 0xC000 0x0F) with pc := 0x0102 }) = true := by decide

/-- S23: `SRL A`. -/
theorem test_srlR8_S23 :
    steps { (start 0x0100 [0xCB, 0x3F]) with a := 0xFF } 2
    (fun s => { s with
      a := 0x7F, fz := false, fn := false, fh := false, fc := true, pc := 0x0102 }) = true := by decide

/-- S26: `BIT 7,[HL]`. -/
theorem test_bitU3R8_S26 :
    steps { ((start 0x0100 [0xCB, 0x7E]).poke 0xC000 0x80) with
      h := 0xC0, l := 0x00, fz := true, fn := true, fh := false, fc := false } 3
    (fun s => { s with
      fz := false, fn := false, fh := true, fc := false, pc := 0x0102 }) = true := by decide

/-- S27: `RES 7,A`. -/
theorem test_resU3R8_S27 :
    steps { (start 0x0100 [0xCB, 0xBF]) with a := 0x80, fz := true, fn := true, fh := true, fc := true } 2
    (fun s => { s with a := 0x00, pc := 0x0102 }) = true := by decide

/-- S28: `SET 3,[HL]`. -/
theorem test_setU3R8_S28 :
    steps { ((start 0x0100 [0xCB, 0xDE]).poke 0xC000 0x00) with
      h := 0xC0, l := 0x00, fz := true, fn := true, fh := true, fc := true } 4
    (fun s => { (s.poke 0xC000 0x08) with pc := 0x0102 }) = true := by decide

/-- J1: `JP 0x0150`. -/
theorem test_jpN16_J1 :
    steps (start 0x0100 [0xC3, 0x50, 0x01]) 4
    (fun s => { s with pc := 0x0150 }) = true := by decide

/-- J3: `JP Z,0x0150`. -/
theorem test_jpCcN16_J3 :
    steps { (start 0x0100 [0xCA, 0x50, 0x01]) with fz := false, fn := false, fh := false, fc := false } 3
    (fun s => { s with pc := 0x0103 }) = true := by decide

/-- J4: `JP NC,0x0150`. -/
theorem test_jpCcN16_J4 :
    steps { (start 0x0100 [0xD2, 0x50, 0x01]) with fz := true, fn := true, fh := true, fc := false } 4
    (fun s => { s with pc := 0x0150 }) = true := by decide

/-- J6: `JP HL`. -/
theorem test_jpHl_J6 :
    steps { (start 0x0100 [0xE9]) with h := 0xC1, l := 0x23 } 1
    (fun s => { s with pc := 0xC123 }) = true := by decide

/-- J8: `JR +5`. -/
theorem test_jr_J8 :
    steps (start 0xFFFE [0x18, 0x05]) 3
    (fun s => { s with pc := 0x0005 }) = true := by decide

/-- J12: `JR NZ,+5`. -/
theorem test_jrCc_J12 :
    steps { (start 0x0100 [0x20, 0x05]) with fz := true, fn := false, fh := false, fc := false } 2
    (fun s => { s with pc := 0x0102 }) = true := by decide

/-- J13: `JR C,-4`. -/
theorem test_jrCc_J13 :
    steps { (start 0x0100 [0x38, 0xFC]) with fz := false, fn := false, fh := false, fc := true } 3
    (fun s => { s with pc := 0x00FE }) = true := by decide

/-- J14: `CALL 0x1234`. -/
theorem test_callN16_J14 :
    steps (start 0xC000 [0xCD, 0x34, 0x12]) 6
    (fun s => { ((s.poke 0xFFFD 0xC0).poke 0xFFFC 0x03) with
      sp := 0xFFFC, pc := 0x1234 }) = true := by decide

/-- J17: `CALL 0x1234`. -/
theorem test_callN16_J17 :
    raises { (start 0xC000 [0xCD, 0x34, 0x12]) with sp := 0x8000 }
    (fun s => { s with
      sp := 0x7FFF, pc := 0xC003, fault := some (.illegalMemoryAccess 0x7FFF .write) }) = true := by decide

/-- J15: `CALL C,0x1234`. -/
theorem test_callCcN16_J15 :
    steps { (start 0xC000 [0xDC, 0x34, 0x12]) with fz := false, fn := false, fh := false, fc := false } 3
    (fun s => { s with pc := 0xC003 }) = true := by decide

/-- J16: `CALL NZ,0x1234`. -/
theorem test_callCcN16_J16 :
    steps { (start 0xC000 [0xC4, 0x34, 0x12]) with fz := false, fn := false, fh := false, fc := false } 6
    (fun s => { ((s.poke 0xFFFD 0xC0).poke 0xFFFC 0x03) with
      sp := 0xFFFC, pc := 0x1234 }) = true := by decide

/-- J18: `RET`. -/
theorem test_ret_J18 :
    steps { (((start 0x1234 [0xC9]).poke 0xFFFC 0x03).poke 0xFFFD 0xC0) with sp := 0xFFFC } 4
    (fun s => { s with sp := 0xFFFE, pc := 0xC003 }) = true := by decide

/-- J19: `RET NZ`. -/
theorem test_retCc_J19 :
    steps { (((start 0x1234 [0xC0]).poke 0xFFFC 0x03).poke 0xFFFD 0xC0) with
      sp := 0xFFFC, fz := true, fn := false, fh := false, fc := false } 2
    (fun s => { s with pc := 0x1235 }) = true := by decide

/-- J20: `RET Z`. -/
theorem test_retCc_J20 :
    steps { (((start 0x1234 [0xC8]).poke 0xFFFC 0x03).poke 0xFFFD 0xC0) with
      sp := 0xFFFC, fz := true, fn := false, fh := false, fc := false } 5
    (fun s => { s with sp := 0xFFFE, pc := 0xC003 }) = true := by decide

/-- J21: `RETI`. -/
theorem test_reti_J21 :
    steps { (((start 0x1234 [0xD9]).poke 0xFFFC 0x03).poke 0xFFFD 0xC0) with sp := 0xFFFC } 4
    (fun s => { s with sp := 0xFFFE, ime := true, pc := 0xC003 }) = true := by decide

/-- J23: `RST 0x00`. -/
theorem test_rst_J23 :
    steps { (start 0x0150 [0xC7]) with sp := 0xD000 } 4
    (fun s => { ((s.poke 0xCFFF 0x01).poke 0xCFFE 0x51) with
      sp := 0xCFFE, pc := 0x0000 }) = true := by decide

/-- Y5: `NOP`. -/
theorem test_nop_Y5 :
    steps { (start 0x0100 [0x00]) with imePending := true } 1
    (fun s => { s with ime := true, imePending := false, pc := 0x0101 }) = true := by decide

/-- Y9: `NOP`. -/
theorem test_nop_Y9 :
    steps (start 0xFFFF [0x00]) 1
    (fun s => { s with pc := 0x0000 }) = true := by decide

/-- Y2: `DI`. -/
theorem test_di_Y2 :
    steps { (start 0x0100 [0xF3]) with ime := true, imePending := true } 1
    (fun s => { s with ime := false, imePending := false, pc := 0x0101 }) = true := by decide

/-- Y4: `EI`. -/
theorem test_ei_Y4 :
    steps { (start 0x0100 [0xFB]) with ime := true } 1
    (fun s => { s with imePending := true, pc := 0x0101 }) = true := by decide

/-- Y7: `HALT`. -/
theorem test_halt_Y7 :
    steps { (start 0x0100 [0x76]) with imePending := true } 1
    (fun s => { s with ime := true, imePending := false, halted := true, pc := 0x0101 }) = true := by decide

/-- Y8: `STOP`. -/
theorem test_stop_Y8 :
    raises (start 0x0100 [0x10, 0x00])
    (fun s => { s with
      pc := 0x0102, fault := some (.unimplemented (.single 0x10) 0x0100) }) = true := by decide

/-- L3: `LD [HL],L`. -/
theorem test_ldR8R8_L3 :
    steps { (start 0x0100 [0x75]) with h := 0xC0, l := 0xAB } 2
    (fun s => { (s.poke 0xC0AB 0xAB) with pc := 0x0101 }) = true := by decide

/-- L4: `LD H,[HL]`. -/
theorem test_ldR8R8_L4 :
    steps { ((start 0x0100 [0x66]).poke 0xC000 0xD1) with h := 0xC0, l := 0x00 } 2
    (fun s => { s with h := 0xD1, pc := 0x0101 }) = true := by decide

/-- L7: `LD [HL],0x99`. -/
theorem test_ldR8N8_L7 :
    steps { (start 0x0100 [0x36, 0x99]) with h := 0xC0, l := 0x00 } 3
    (fun s => { (s.poke 0xC000 0x99) with pc := 0x0102 }) = true := by decide

/-- L10: `LD [HL+],A`. -/
theorem test_ldR16MemA_L10 :
    steps { (start 0x0100 [0x22]) with a := 0x12, h := 0xFF, l := 0xFF } 2
    (fun s => { (s.poke 0xFFFF 0x12) with h := 0x00, l := 0x00, pc := 0x0101 }) = true := by decide

/-- L17: `LD A,[HL-]`. -/
theorem test_ldAR16Mem_L17 :
    steps { ((start 0x0100 [0x3A]).poke 0xC000 0x66) with h := 0xC0, l := 0x00 } 2
    (fun s => { s with a := 0x66, h := 0xBF, l := 0xFF, pc := 0x0101 }) = true := by decide

/-- L18: `LD [0xC123],A`. -/
theorem test_ldN16A_L18 :
    steps { (start 0x0100 [0xEA, 0x23, 0xC1]) with a := 0x12 } 4
    (fun s => { (s.poke 0xC123 0x12) with pc := 0x0103 }) = true := by decide

/-- L21: `LD A,[0xFEA0]`. -/
theorem test_ldAN16_L21 :
    raises { (start 0x0100 [0xFA, 0xA0, 0xFE]) with a := 0x55 }
    (fun s => { s with
      pc := 0x0103, fault := some (.illegalMemoryAccess 0xFEA0 .read) }) = true := by decide

/-- L22: `LDH [0xFF],A`. -/
theorem test_ldhN8A_L22 :
    steps { (start 0x0100 [0xE0, 0xFF]) with a := 0x1F } 3
    (fun s => { (s.poke 0xFFFF 0x1F) with pc := 0x0102 }) = true := by decide

/-- L23: `LDH A,[0x44]`. -/
theorem test_ldhAN8_L23 :
    steps ((start 0x0100 [0xF0, 0x44]).poke 0xFF44 0x90) 3
    (fun s => { s with a := 0x90, pc := 0x0102 }) = true := by decide

/-- L24: `LDH [C],A`. -/
theorem test_ldhCA_L24 :
    steps { (start 0x0100 [0xE2]) with a := 0x12, c := 0x80 } 2
    (fun s => { (s.poke 0xFF80 0x12) with pc := 0x0101 }) = true := by decide

/-- L25: `LDH A,[C]`. -/
theorem test_ldhAC_L25 :
    steps { ((start 0x0100 [0xF2]).poke 0xFF80 0x34) with c := 0x80 } 2
    (fun s => { s with a := 0x34, pc := 0x0101 }) = true := by decide

/-- K1: `LD HL,0xC123`. -/
theorem test_ldR16N16_K1 :
    steps (start 0x0100 [0x21, 0x23, 0xC1]) 3
    (fun s => { s with h := 0xC1, l := 0x23, pc := 0x0103 }) = true := by decide

/-- K3: `LD [0xC100],SP`. -/
theorem test_ldN16Sp_K3 :
    steps { (start 0x0100 [0x08, 0x00, 0xC1]) with sp := 0xFFF8 } 5
    (fun s => { ((s.poke 0xC100 0xF8).poke 0xC101 0xFF) with pc := 0x0103 }) = true := by decide

/-- K4: `LD [0xFFFF],SP`. -/
theorem test_ldN16Sp_K4 :
    raises { (start 0x0100 [0x08, 0xFF, 0xFF]) with sp := 0x1234 }
    (fun s => { (s.poke 0xFFFF 0x34) with
      pc := 0x0103, fault := some (.illegalMemoryAccess 0x0000 .write) }) = true := by decide

/-- K5: `LD SP,HL`. -/
theorem test_ldSpHl_K5 :
    steps { (start 0x0100 [0xF9]) with h := 0xC1, l := 0x23 } 2
    (fun s => { s with sp := 0xC123, pc := 0x0101 }) = true := by decide

/-- K7: `PUSH AF`. -/
theorem test_push_K7 :
    steps { (start 0x0100 [0xF5]) with a := 0x12, fz := true, fn := false, fh := true, fc := false } 4
    (fun s => { ((s.poke 0xFFFD 0x12).poke 0xFFFC 0xA0) with
      sp := 0xFFFC, pc := 0x0101 }) = true := by decide

/-- K13: `POP AF`. -/
theorem test_pop_K13 :
    steps { (((start 0x0100 [0xF1]).poke 0xFFFC 0x0F).poke 0xFFFD 0xAB) with
      sp := 0xFFFC, fz := true, fn := true, fh := true, fc := true } 3
    (fun s => { s with
      a := 0xAB, fz := false, fn := false, fh := false, fc := false, sp := 0xFFFE, pc := 0x0101 }) = true := by decide

/-- K14: `POP BC`. -/
theorem test_pop_K14 :
    steps { (((start 0x0100 [0xC1]).poke 0xFFFF 0x77).poke 0x0000 0x88) with sp := 0xFFFF } 3
    (fun s => { s with b := 0x88, c := 0x77, sp := 0x0001, pc := 0x0101 }) = true := by decide

/-- Y11: `(illegal)`. -/
theorem test_fetch_Y11 :
    raises (start 0xC000 [0xD3])
    (fun s => { s with pc := 0xC001, fault := some (.illegalOpcode 0xD3 0xC000) }) = true := by decide

/-- Y22: `(opcode fetch)`. -/
theorem test_fetch_Y22 :
    raises (start 0xE000 [])
    (fun s => { s with
      pc := 0xE000, fault := some (.illegalMemoryAccess 0xE000 .read) }) = true := by decide

/-- R446: with `fault` set the step answers the fault. -/
theorem test_fault_stops : step { State.reset with fault := some (.illegalOpcode 0xD3 0x0100) } =
    .fault (.illegalOpcode 0xD3 0x0100) := rfl

/-- P6: the prefix byte alone, PC past it at the byte 0x37: `SWAP A`. -/
theorem test_prefixCb : exec .prefixCb { (start 0x0109 [0x37]) with a := 0x12, fc := true } =
    .next { (start 0x0109 [0x37]) with a := 0x21, pc := 0x010A, cost := 2 } := rfl

/-- A word put where the next step fetches is the instruction that step runs. -/
theorem test_withFetchWord :
    steps (State.reset.withFetchWord 16 0x423E) 2 (fun s => { s with a := 0x42, pc := 0x0102 }) = true := by
  decide

/-- V9: the end of a frame, and line 154 is never published. -/
theorem test_ppuStep_V9 :
    ppuStep 1 ({ State.reset with dots := 452, ly := 153 }.poke 0xFF44 0x99) =
      { State.reset with events := [.endOfFrame, .publish 0] } := by decide

/-- V11: the loop runs twice. -/
theorem test_ppuStep_V11 :
    ppuStep 228 { State.reset with ly := 5 } = { (State.reset.poke 0xFF44 7) with
      ly := 7, events := [.objectSearch 5, .pixelTransfer 5, .publish 6, .objectSearch 6,
        .pixelTransfer 6, .publish 7] } := by decide

/-- A configuration with interrupts (R6). -/
def withInterrupts : Config := { Config.standard with intDispatch := true }

/-- R430: IE and IF give source 2 (timer); it is taken at 0x0050 at the cost of 5 cycles. -/
theorem test_interrupt_entry :
    steps ({ ((State.reset.poke 0xFFFF 0x1F).poke 0xFF0F 0x14) with
        cfg := withInterrupts, ime := true, halted := true, pc := 0xC123, sp := 0xD000 }) 5
      (fun s => { (((s.poke 0xFF0F 0x10).poke 0xCFFF 0xC1).poke 0xCFFE 0x23) with
        ime := false, halted := false, pc := 0x0050, sp := 0xCFFE }) = true := by decide

/-- E6: the tile of the source, row 0 its own, rows 1 to 7 derived from R91. -/
theorem test_decodeTile_E6 : decodeTile [0x3C, 0x7E, 0x42, 0x42, 0x42, 0x42, 0x42, 0x42, 0x7E, 0x5E,
    0x7E, 0x0A, 0x7C, 0x56, 0x38, 0x7C] =
    [[0, 2, 3, 3, 3, 3, 2, 0], [0, 3, 0, 0, 0, 0, 3, 0], [0, 3, 0, 0, 0, 0, 3, 0], [0, 3, 0, 0, 0, 0, 3, 0],
      [0, 3, 1, 3, 3, 3, 3, 0], [0, 1, 1, 1, 3, 1, 3, 0], [0, 3, 1, 3, 1, 3, 2, 0],
      [0, 2, 3, 3, 3, 2, 0, 0]] := by decide

/-- H2: the header checksum of "TEST" and 21 zero bytes. -/
theorem test_headerSum_H2 : headerSum ([0x54, 0x45, 0x53, 0x54] ++ List.replicate 21 0) = 0xA7 := by decide

/-! ## Witnesses: every hypothesis of a statement can be met, all of one statement's together -/

/-- The state of the interrupt witnesses: IE full, one bit of IF. -/
abbrev pendingState (q : Byte) (ime : Bool) : State :=
  { ((State.reset.poke 0xFFFF 0x1F).poke 0xFF0F q) with cfg := withInterrupts, ime := ime, halted := true }

/-- HL at an address. -/
abbrev atHl (hi lo : Byte) : State := { State.reset with h := hi, l := lo }

/-- SP at an address. -/
abbrev atSp (a : Word) : State := { State.reset with sp := a }

/-- `AddAndAdcRegisterForm`, `SubAndSbcRegisterForm`, `LogicRegisterForm`, `CompareKeepsA`,
`BitInstructions`: HL at the ends of readable ranges, and a register. -/
theorem witness_canRead : CanRead .hlInd (atHl 0x00 0x00) ∧ CanRead .hlInd (atHl 0xDF 0xFF) ∧
    CanRead .hlInd (atHl 0xFE 0x9F) ∧ CanRead .hlInd (atHl 0xFF 0xFF) ∧ CanRead .b (atHl 0xE0 0x00) := by
  decide

/-- `IncAndDecByte`, `PrefixedRotatesAndShifts`, `BitInstructions`: HL at the ends of writable ranges. -/
theorem witness_canWrite : CanWrite .hlInd (atHl 0x80 0x00) ∧ CanWrite .hlInd (atHl 0xDF 0xFF) ∧
    CanWrite .hlInd (atHl 0xFE 0x00) ∧ CanWrite .hlInd (atHl 0xFF 0xFF) ∧
    CanWrite .a (atHl 0x7F 0xFF) := by decide

/-- `DaaGivesDecimalResult`, at the largest numbers and with the carry. -/
theorem witness_daaGivesDecimalResult : 99 < 100 ∧
    ({ State.reset with a := 0x99, fc := true } : State).a = bcd 99 := by decide

/-- `CallsPushReturnAddress`, `PushAndPop`, `PopAfterPushRestores`: SP where both bytes are the lowest
writable ones, and where it wraps. -/
theorem witness_push : (writable ((atSp 0x8002).sp - 1) = true ∧ writable ((atSp 0x8002).sp - 2) = true) ∧
    (writable ((atSp 0).sp - 1) = true ∧ writable ((atSp 0).sp - 2) = true) := by decide

/-- `CallsPushReturnAddress`, `ReturnsPopPc`: a condition that holds and one that does not, both at a
stack that may be accessed. -/
theorem witness_conditions : condHolds .nz (atSp 0xFFFC) = true ∧ condHolds .z (atSp 0xFFFC) = false ∧
    condHolds .nc (atSp 0xFFFC) = true ∧ condHolds .c (atSp 0xFFFC) = false ∧
    writable ((atSp 0xFFFC).sp - 1) = true ∧ writable ((atSp 0xFFFC).sp - 2) = true := by decide

/-- `ReturnsPopPc`, `PushAndPop`: SP at the last readable pair of work RAM, and where the pair wraps. -/
theorem witness_pop : (readable (atSp 0xDFFE).sp = true ∧ readable ((atSp 0xDFFE).sp + 1) = true) ∧
    (readable (atSp 0xFFFF).sp = true ∧ readable ((atSp 0xFFFF).sp + 1) = true) := by decide

/-- `StopRaisesUnimplemented`. -/
theorem witness_stop : Fetches (start 0x0100 [0x10, 0x00]) ∧
    readable (start 0x0100 [0x10, 0x00]).pc = true ∧ readable ((start 0x0100 [0x10, 0x00]).pc + 1) = true ∧
    (start 0x0100 [0x10, 0x00]).peek (start 0x0100 [0x10, 0x00]).pc = 0x10 :=
  ⟨⟨rfl, rfl, .inl rfl⟩, rfl, rfl, rfl⟩

/-- `PrefixRunsSecondTable`, at the second byte 0xCB. -/
theorem witness_prefix : readable (start 0x0101 [0xCB]).pc = true ∧
    (Instr.setU3R8 1 .e).wellFormed = true ∧
    encode (.setU3R8 1 .e) = [0xCB, (start 0x0101 [0xCB]).peek (start 0x0101 [0xCB]).pc] ∧
    loads (.setU3R8 1 .e) (start 0x0101 [0xCB]) = [] ∧ stores (.setU3R8 1 .e) (start 0x0101 [0xCB]) = [] := by
  decide

/-- `ByteLoads`: `[HL]` as the destination, and as the source. -/
theorem witness_byteLoads : (CanWrite .hlInd (atHl 0x80 0x00) ∧ CanRead .l (atHl 0x80 0x00)) ∧
    (CanWrite .h (atHl 0x7F 0xFF) ∧ CanRead .hlInd (atHl 0x7F 0xFF)) := by decide

/-- `AddressFormLoads`: every clause. -/
theorem witness_addressForms : writable { State.reset with b := 0x80 }.bc = true ∧
    writable { State.reset with d := 0xFE, e := 0x9F }.de = true ∧ writable (atHl 0xFF 0xFF).hl = true ∧
    readable State.reset.bc = true ∧ readable { State.reset with d := 0xDF, e := 0xFF }.de = true ∧
    readable (atHl 0x7F 0xFF).hl = true := by decide

/-- `AbsoluteAndHighPageLoads`, `BusReadAndWrite`: the ends of ranges. -/
theorem witness_absolute : writable 0x8000 = true ∧ writable 0xFE9F = true ∧ writable 0xFF00 = true ∧
    readable 0x0000 = true ∧ readable 0xDFFF = true ∧ writable 0x7FFF = false ∧ writable 0xE000 = false ∧
    readable 0xFEFF = false := by decide

/-- `WordLoads`, `TwoByteAccessLittleEndian`: a pair that may be written, and one whose second byte
wraps into ROM. -/
theorem witness_wordLoads : (writable 0xFFFE = true ∧ writable (0xFFFE + 1) = true) ∧
    (writable 0xFFFF = true ∧ writable (0xFFFF + 1) = false) ∧
    (writable 0xDFFE = true ∧ writable (0xDFFE + 1) = true) := by decide

/-- `UnreadableOperandRaises`, at the four ends of the prohibited regions, and each address register. -/
theorem witness_unreadable : readable (atHl 0xE0 0x00).hl = false ∧ readable (atHl 0xFD 0xFF).hl = false ∧
    readable (atHl 0xFE 0xA0).hl = false ∧ readable (atHl 0xFE 0xFF).hl = false ∧
    Instr.incR8 .hlInd ∈ [Instr.incR8 .hlInd] ∧
    readable { State.reset with b := 0xE0 }.bc = false ∧
    readable { State.reset with d := 0xFD, e := 0xFF }.de = false ∧ readable 0xFEA0 = false := by decide

/-- `UnwritableOperandRaises`: the forms that read first, at both ends of ROM; those that only store,
there and at the ends of the prohibited regions, by each address register. -/
theorem witness_unwritable : (readable (atHl 0x00 0x00).hl = true ∧ writable (atHl 0x00 0x00).hl = false) ∧
    (readable (atHl 0x7F 0xFF).hl = true ∧ writable (atHl 0x7F 0xFF).hl = false) ∧
    R8.b ≠ .hlInd ∧ writable (atHl 0xE0 0x00).hl = false ∧ writable (atHl 0xFE 0xFF).hl = false ∧
    writable { State.reset with b := 0xFD, c := 0xFF }.bc = false ∧
    writable { State.reset with d := 0x7F, e := 0xFF }.de = false ∧ writable 0xFEA0 = false := by decide

/-- `LD [HL+],A`, which reads nothing at HL, writes at an unusable address: HL stays (R64, R312). -/
theorem test_ldR16MemA_unusable : exec (.ldR16MemA .hlInc) (atHl 0xFE 0xA0) =
    .next { (atHl 0xFE 0xA0) with fault := some (.illegalMemoryAccess 0xFEA0 .write) } := rfl

/-- `StackFaultsKeepPartialEffects`: the first and the second access, of a push and of a pop, and a
condition that holds. -/
theorem witness_stackFaults : writable ((atSp 0xE001).sp - 1) = false ∧
    (writable ((atSp 0x8001).sp - 1) = true ∧ writable ((atSp 0x8001).sp - 2) = false) ∧
    readable (atSp 0xE000).sp = false ∧
    (readable (atSp 0xDFFF).sp = true ∧ readable ((atSp 0xDFFF).sp + 1) = false) ∧
    condHolds .nz (atSp 0xE001) = true ∧ condHolds .nc (atSp 0x8001) = true ∧
    condHolds .nz (atSp 0xE000) = true ∧ condHolds .nc (atSp 0xDFFF) = true := by decide

/-- `InstructionsRaiseOnlyTheirConditions`: a form that completes, one whose read raises, one whose
write raises. -/
theorem witness_raises : (∃ t, exec (.push .bc) (atSp 0xD000) = .next t ∧ t.fault = none) ∧
    (∃ t, exec .ret (atSp 0xE000) = .next t ∧ t.fault = some (.illegalMemoryAccess 0xE000 .read)) ∧
    (∃ t, exec (.push .bc) (atSp 0x0001) = .next t ∧ t.fault = some (.illegalMemoryAccess 0 .write)) :=
  ⟨⟨_, rfl, rfl⟩, ⟨_, rfl, rfl⟩, ⟨_, rfl, rfl⟩⟩

/-- `MemoryFrame`, `RegisterFrame`, `FlagFrame`, `ControlStateFrame`: a storing form, with an address, a
register and a flag outside what it changes. -/
theorem witness_frames : Instr.push .bc ≠ .prefixCb ∧ (∃ t, exec (.push .bc) (atSp 0xD000) = .next t) ∧
    (0xCFFD : Word) ∉ stores (.push .bc) (atSp 0xD000) ∧
    RegName.a ∉ dests (.push .bc) (atSp 0xD000) ∧ FlagName.z ∉ flagsWritten (.push .bc) ∧
    Instr.push .bc ≠ .di ∧ Instr.push .bc ≠ .ei ∧ Instr.push .bc ≠ .reti ∧ Instr.push .bc ≠ .halt ∧
    transfersControl (.push .bc) = false :=
  ⟨by decide, ⟨_, rfl⟩, by decide, by decide, by decide, by decide, by decide, by decide, by decide, rfl⟩

/-- `StepRunsDecodedInstruction`, admitted and not: `LD A,0x42` with its bytes across the wrap of PC. -/
theorem witness_step : Fetches (start 0xFFFF [0x3E, 0x42]) ∧
    decode [(start 0xFFFF [0x3E, 0x42]).peek 0xFFFF, (start 0xFFFF [0x3E, 0x42]).peek 0x0000,
      (start 0xFFFF [0x3E, 0x42]).peek 0x0001] = .ok (.ldR8N8 .a 0x42, [0x00]) ∧
    (∀ k < (encode (.ldR8N8 .a 0x42)).length, readable (pcPlus (start 0xFFFF [0x3E, 0x42]) k) = true) ∧
    admitted (start 0xFFFF [0x3E, 0x42]).cfg (.ldR8N8 .a 0x42) = true ∧
    admitted { Config.standard with admittedSet := .sourceNamed } (.ldR8N8 .a 0x42) = false ∧
    (∃ u, exec (.ldR8N8 .a 0x42) (start 0xFFFF [0x3E, 0x42]) = .next u ∧ u.fault = none) :=
  ⟨⟨rfl, rfl, .inl rfl⟩, rfl, by decide, rfl, rfl, ⟨_, rfl, rfl⟩⟩

/-- `StepRunsDecodedInstruction`, a prefixed instruction outside the admitted set: `SWAP A` (R404). -/
theorem witness_step_prefixed :
    Fetches { (start 0x0100 [0xCB, 0x37]) with cfg := { Config.standard with admittedSet := .sourceNamed } } ∧
    decode [0xCB, 0x37, 0x00] = .ok (.swapR8 .a, [0x00]) ∧
    admitted { Config.standard with admittedSet := .sourceNamed } (.swapR8 .a) = false ∧
    (step { (start 0x0100 [0xCB, 0x37]) with
      cfg := { Config.standard with admittedSet := .sourceNamed } } matches .next _) :=
  ⟨⟨rfl, rfl, .inl rfl⟩, rfl, rfl, rfl⟩

/-- `StepRunsDecodedInstruction`, `FetchConditions`, `EnableAfterNextInstruction`,
`StopRaisesUnimplemented`: with `INT_DISPATCH` and a source pending and enabled, a step with `ime` false
fetches and runs the `NOP` at PC (R430); the latch set before it fires at its end. -/
theorem witness_fetches_pending :
    (let s : State := { (pendingState 0x01 false) with halted := false };
      Fetches s ∧ s.cfg.intDispatch = true ∧ s.pendingEnabled ≠ 0 ∧
      decode [s.peek s.pc, s.peek (s.pc + 1), s.peek (s.pc + 2)] = .ok (.nop, [0x00, 0x00]) ∧
      readable s.pc = true ∧ admitted s.cfg .nop = true) ∧
    steps { (pendingState 0x01 false) with halted := false, imePending := true } 1
      (fun s => { s with pc := 0x0101, ime := true, imePending := false }) = true :=
  ⟨⟨⟨rfl, rfl, .inr (.inr rfl)⟩, rfl, by decide, rfl, rfl, rfl⟩, by decide⟩

/-- `FetchConditions`: PC in a prohibited region; an illegal byte; an operand in a prohibited region. -/
theorem witness_fetch : (Fetches (start 0xE000 []) ∧ readable (start 0xE000 []).pc = false) ∧
    (Fetches (start 0xC000 [0xD3]) ∧ readable (start 0xC000 [0xD3]).pc = true ∧
      firstMatch templates ((start 0xC000 [0xD3]).peek (start 0xC000 [0xD3]).pc) = none) ∧
    (Fetches (start 0xDFFE [0xC3, 0x00]) ∧
      firstMatch templates ((start 0xDFFE [0xC3, 0x00]).peek 0xDFFE) = some .jpN16 ∧
      2 ≤ Row.jpN16.format.tailLength ∧
      (∀ j < 2, readable (pcPlus (start 0xDFFE [0xC3, 0x00]) j) = true) ∧
      readable (pcPlus (start 0xDFFE [0xC3, 0x00]) 2) = false) :=
  ⟨⟨⟨rfl, rfl, .inl rfl⟩, rfl⟩, ⟨⟨rfl, rfl, .inl rfl⟩, rfl, rfl⟩,
    ⟨⟨rfl, rfl, .inl rfl⟩, rfl, by decide, by decide, rfl⟩⟩

/-- `FaultStopsTheMachine`. -/
theorem witness_fault : ({ State.reset with fault := some (.illegalOpcode 0xD3 0) } : State).fault =
    some (.illegalOpcode 0xD3 0) := rfl

/-- `HaltedStepOnlyMovesTheTimingUnit`: without interrupts, and with them and none pending; short of the
end of a line; an address outside the two bytes. -/
theorem witness_halted : (({ State.reset with halted := true } : State).fault = none ∧
    ({ State.reset with halted := true } : State).cfg.intDispatch = false) ∧
    (({ State.reset with halted := true, cfg := withInterrupts } : State).pendingEnabled = 0) ∧
    State.reset.dots + 4 * cyclesOf Config.standard .haltIdle < 456 ∧
    (0xC000 : Word) ≠ lyAddr withInterrupts ∧ (0xC000 : Word) ≠ ifAddr := by decide

/-- `HaltedStepOnlyMovesTheTimingUnit`, a run that completes: `HALT` at PC. -/
theorem witness_runCompletes :
    (start 0x0100 [0x76]).cfg.intDispatch = false ∧ ∃ e, RunCompletes (start 0x0100 [0x76]) e :=
  ⟨rfl, _, ⟨1, (runToEnd_of_next 0 _ _ rfl rfl).trans (runToEnd_of_ended 0 _ rfl)⟩, rfl⟩

/-- R447: the end of a run of `HALT` is the state after it, one step on. -/
theorem test_runToEnd_halt : (runToEnd 2 (start 0x0100 [0x76])).any
    (fun e => e.halted && e.pc == 0x0101 && e.dots == 4 && e.fault == none) = true := by rfl

/-- `EnableAfterNextInstruction`, one state for each clause: `NOP` with the latch set and clear, and
`DI`. -/
theorem witness_enable :
    (Fetches { (start 0x0100 [0x00]) with imePending := true } ∧
      ∃ t, step { (start 0x0100 [0x00]) with imePending := true } = .next t ∧ t.fault = none ∧
        t.ime = true) ∧
    (Fetches (start 0x0100 [0x00]) ∧ (start 0x0100 [0x00]).peek 0x0100 ≠ 0xFB ∧
      ∃ t, step (start 0x0100 [0x00]) = .next t ∧ t.fault = none) ∧
    (Fetches { (start 0x0100 [0x00]) with ime := true } ∧
      ∃ t, step { (start 0x0100 [0x00]) with ime := true } = .next t ∧ t.fault = none ∧ t.ime = true) ∧
    (Fetches (start 0x0100 [0xF3]) ∧ (start 0x0100 [0xF3]).peek 0x0100 = 0xF3 ∧
      ∃ t, step (start 0x0100 [0xF3]) = .next t ∧ t.fault = none) :=
  ⟨⟨⟨rfl, rfl, .inl rfl⟩, _, rfl, rfl, rfl⟩, ⟨⟨rfl, rfl, .inl rfl⟩, by decide, _, rfl, rfl⟩,
    ⟨⟨rfl, rfl, .inl rfl⟩, _, rfl, rfl, rfl⟩, ⟨⟨rfl, rfl, .inl rfl⟩, by decide, _, rfl, rfl⟩⟩

/-- `RomNeverChanges`: a store step, and the last ROM address. -/
theorem witness_rom : (∃ t, step { (start 0x0100 [0xE0, 0x80]) with a := 0x5A } = .next t ∧
    t.peek 0xFF80 = 0x5A) ∧ (0x7FFF : Word).toNat ≤ 0x7FFF := ⟨⟨_, rfl, rfl⟩, by decide⟩

/-- `StepKeepsInv`: a state at the upper bounds, and a step from it. -/
theorem witness_inv : Inv { State.reset with dots := 455, ly := 153 } ∧
    ∃ t, step { State.reset with dots := 455, ly := 153 } = .next t :=
  ⟨⟨by decide, fun _ _ => by simp [State.peek, State.reset, State.resetOf, Launch.standard, Memory.write,
      Memory.erase, Memory.read, unlistedByte], by decide, by decide⟩, _, rfl⟩

/-- `TimingUnitClosedForm`, `ScanlineAdvance`, `TimingUnitFrame`: the lines where the clauses meet; the
last dots short of a line, the first and the last that cross one, and the first that cross two; an
address outside. -/
theorem witness_timing : ({ State.reset with ly := 153 } : State).ly ≤ 153 ∧
    ({ State.reset with ly := 143 } : State).ly ≤ 143 ∧ ¬ ({ State.reset with ly := 144 } : State).ly ≤ 143 ∧
    (State.reset.dots = 0 ∧ State.reset.ly = 0) ∧ ifAddr ≠ lyAddr Config.standard ∧
    ({ State.reset with dots := 451 } : State).dots + 4 * 1 < 456 ∧
    456 ≤ ({ State.reset with dots := 452 } : State).dots + 4 * 1 ∧
    (456 ≤ ({ State.reset with dots := 455 } : State).dots + 4 * 114 ∧
      ({ State.reset with dots := 455 } : State).dots + 4 * 114 < 912) ∧
    912 ≤ State.reset.dots + 4 * 228 ∧
    (0xC000 : Word) ≠ lyAddr Config.standard ∧ (0xC000 : Word) ≠ ifAddr := by decide

/-- `InterruptEntry`: the highest and the lowest source, with `ime` and without. -/
theorem witness_interrupt :
    ((pendingState 0x10 true).fault = none ∧ (pendingState 0x10 true).cfg.intDispatch = true ∧
      ((pendingState 0x10 true).peek ieAddr).getLsbD 4 = true ∧
      ((pendingState 0x10 true).peek ifAddr).getLsbD 4 = true ∧
      (∀ j < 4, (((pendingState 0x10 true).peek ieAddr).getLsbD j &&
        ((pendingState 0x10 true).peek ifAddr).getLsbD j) = false) ∧
      writable ((pendingState 0x10 true).sp - 1) = true ∧
      writable ((pendingState 0x10 true).sp - 2) = true ∧
      ifAddr ≠ (pendingState 0x10 true).sp - 1 ∧ ifAddr ≠ (pendingState 0x10 true).sp - 2) ∧
    (((pendingState 0x01 false).peek ieAddr).getLsbD 0 = true ∧
      ((pendingState 0x01 false).peek ifAddr).getLsbD 0 = true ∧ (pendingState 0x01 false).ime = false) := by
  decide

/-- `InterruptEntry`, a refused stack write: the first, with SP at an echo address, and the second, with
SP one above the first address of video RAM. -/
theorem witness_interrupt_refused :
    (({ (pendingState 0x04 true) with sp := 0xE001 } : State).fault = none ∧
      ({ (pendingState 0x04 true) with sp := 0xE001 } : State).cfg.intDispatch = true ∧
      ((pendingState 0x04 true).peek ieAddr).getLsbD 2 = true ∧
      ((pendingState 0x04 true).peek ifAddr).getLsbD 2 = true ∧
      (∀ j < 2, (((pendingState 0x04 true).peek ieAddr).getLsbD j &&
        ((pendingState 0x04 true).peek ifAddr).getLsbD j) = false)) ∧
    writable ((0xE001 : Word) - 1) = false ∧
    writable ((0x8001 : Word) - 1) = true ∧ writable ((0x8001 : Word) - 2) = false := by decide

/-- R430, R97: an entry whose first write is refused: `ime` off, the request cleared, SP lowered by 1. -/
theorem test_interrupt_refused :
    raises { (pendingState 0x14 true) with sp := 0xE001, pc := 0xC123 }
      (fun s => { (s.poke 0xFF0F 0x10) with
        ime := false, halted := false, sp := 0xE000,
        fault := some (.illegalMemoryAccess 0xE000 .write) }) = true := by decide

/-- `AdmittedSet`: both settings. -/
theorem witness_admitted : Config.standard.admittedSet = .full ∧
    ({ Config.standard with admittedSet := .sourceNamed } : Config).admittedSet = .sourceNamed := by decide

/-- A valid image for a logo of 48 zero bytes: all zero but the header checksum 0xE7 and the global
checksum 0x00E7. -/
def zeroImage : List Byte := List.replicate 0x14D 0 ++ ([0xE7, 0x00, 0xE7] ++ List.replicate 32432 0)

/-- `LaunchNeedsValidImage`: a valid image, an invalid one, one of another length. -/
theorem witness_launch : ValidImage (List.replicate 48 0) zeroImage ∧
    ¬ ValidImage (List.replicate 48 1) zeroImage ∧ ([] : List Byte).length ≠ 32768 := by
  have hlogo : (zeroImage.drop 0x104).take 48 = List.replicate 48 0 := by
    simp only [zeroImage, List.drop_append, List.drop_replicate, List.take_append, List.take_replicate,
      List.length_replicate]
    rfl
  refine ⟨⟨?_, hlogo, ?_, ?_⟩, fun h => absurd (hlogo.symm.trans h.2.1) (by decide), by decide⟩
  · simp only [zeroImage, List.length_append, List.length_replicate, List.length_cons, List.length_nil]
  · have e : (zeroImage.drop 0x134).take 25 = List.replicate 25 0 := by
      simp only [zeroImage, List.drop_append, List.drop_replicate, List.take_append, List.take_replicate,
        List.length_replicate]
      rfl
    rw [e]; rfl
  · have e : zeroImage.take 0x14E ++ zeroImage.drop 0x150 =
        List.replicate 0x14D 0 ++ [0xE7] ++ List.replicate 32432 0 := by
      simp only [zeroImage, List.drop_append, List.drop_replicate, List.take_append, List.take_replicate,
        List.length_replicate]
      rfl
    rw [e]
    have h1 : imageByte zeroImage 0x14E = 0 := rfl
    have h2 : imageByte zeroImage 0x14F = 0xE7 := rfl
    rw [h1, h2]
    simp only [sumBytes, List.map_append, List.map_replicate, List.map_cons, List.map_nil, List.sum_append,
      List.sum_replicate, List.sum_cons, List.sum_nil, smul_eq_mul]
    rfl

/-- `ResetMeetsInv`: a valid image, and a canonical storage with a byte beside a prohibited region. -/
theorem witness_launch_meetsInv : ValidImage (List.replicate 48 0) zeroImage ∧
    ({ Launch.standard with mem := [(0xDFFF, 0x12)] } : Launch).mem.wf = true ∧
    ∀ a : Word, readable a = false →
      ({ Launch.standard with mem := [(0xDFFF, 0x12)] } : Launch).mem.read a.toNat = unlistedByte := by
  refine ⟨witness_launch.1, by decide, fun a h => ?_⟩
  have hn : 0xDFFF ≠ a.toNat := fun e => by
    rw [show a = 0xDFFF from BitVec.eq_of_toNat_eq e.symm] at h; exact absurd h (by decide)
  simp only [Memory.read, if_neg hn]

/-- `DecodeOfEncode`, `EncodeOfDecode`, with bytes behind. -/
theorem witness_roundTrip : (Instr.callCcN16 .nz 0x1234).wellFormed = true ∧
    decode [0xC4, 0x34, 0x12, 0x99] = .ok (.callCcN16 .nz 0x1234, [0x99]) := ⟨rfl, rfl⟩

/-- `TemplatesCoverAllBytes`: a byte other than 0x76. -/
theorem witness_templates : (0x77 : Byte) ≠ 0x76 := by decide

/-- `DefaultCosts`: an instruction that completes with the default table, and keys of the list. -/
theorem witness_costs : State.reset.cfg.cycles = [] ∧ State.reset.fault = none ∧
    (∃ t, exec .nop State.reset = .next t ∧ t.fault = none) ∧
    (.haltIdle, 1) ∈ listedCosts ∧ (.row .push .plain, 4) ∈ listedCosts ∧
    (.row .setU3R8 .hl, 4) ∈ listedCosts := ⟨rfl, rfl, ⟨_, rfl, rfl⟩, by decide, by decide, by decide⟩

/-- `TileCodecMapping`: the first and the last byte of the tile-data blocks, another row of the same
tile, and the addresses on either side of the blocks. -/
theorem witness_tiles : (0x8000 ≤ (0x97FF : Word).toNat ∧ (0x97FF : Word).toNat ≤ 0x97FF ∧
      (0x97FF : Word).toNat = 0x8000 + 0x800 * 2 + 0x7FF) ∧
    (0x8000 : Word).toNat = 0x8000 + 0x800 * 0 + 0 ∧ 0x7FF < 0x800 ∧
    (2 : Nat) < 3 ∧ 0x7FF / 16 < 128 ∧ (6 : Nat) ≠ 0x7FF % 16 / 2 ∧
    (0x7FFF : Word).toNat < 0x8000 ∧ 0x97FF < (0x9800 : Word).toNat := by decide

end Sys2Proof.Tests
end

section
/-! PROOFS. What an instruction's rule may change, said once for all instructions: the registers and
flags of its frame, storage through the bus, and nothing else of the timing unit, the trace or the
parameters. Each named update of `State` and each shared operation has one rule; `exec_changes` is
their composition, and the frames of O37 and O38 and the core's half of O47 are read off from it. -/

namespace Sys2Proof.Machine

open Sys2Proof.Claims

/-! ## Storage written through the bus -/

/-- The second storage comes from the first by stores to writable addresses. -/
inductive BusWrites (m : Memory) : Memory → Prop where
  | refl : BusWrites m m
  | write {m' : Memory} (h : BusWrites m m') (a : Word) (v : Byte) (ha : writable a = true) :
      BusWrites m (m'.write a.toNat v)

theorem BusWrites.trans {m m' m'' : Memory} (h : BusWrites m m') (h' : BusWrites m' m'') :
    BusWrites m m'' := by
  induction h' with
  | refl => exact h
  | write _ a v ha ih => exact ih.write a v ha

/-- Storage written through the bus stays canonical (R73). -/
theorem BusWrites.wf {m m' : Memory} (h : BusWrites m m') (hm : m.wf = true) : m'.wf = true := by
  induction h with
  | refl => exact hm
  | write _ a v _ ih => exact wf_write _ _ _ a.isLt ih

/-- A byte at an address that refuses writes is never changed (R63, R64). -/
theorem BusWrites.read_eq {m m' : Memory} (h : BusWrites m m') {a : Word} (ha : writable a = false) :
    m'.read a.toNat = m.read a.toNat := by
  induction h with
  | refl => rfl
  | write _ b v hb ih =>
    have hne : a ≠ b := by rintro rfl; simp [hb] at ha
    rw [read_write_other _ _ _ _ (by simpa [BitVec.toNat_inj] using hne), ih]

/-! ## The relation -/

/-- `t` differs from `s` in what the CPU core owns alone: storage is written through the bus, and the
timing unit, the trace and the parameters stand as they did. -/
structure CoreEffect (s t : State) : Prop where
  mem : BusWrites s.mem t.mem
  dots : t.dots = s.dots
  ly : t.ly = s.ly
  events : t.events = s.events
  cfg : t.cfg = s.cfg

theorem CoreEffect.refl (s : State) : CoreEffect s s := ⟨.refl, rfl, rfl, rfl, rfl⟩

theorem CoreEffect.trans {s t u : State} (h : CoreEffect s t) (h' : CoreEffect t u) : CoreEffect s u :=
  ⟨h.mem.trans h'.mem, h'.dots.trans h.dots, h'.ly.trans h.ly, h'.events.trans h.events,
    h'.cfg.trans h.cfg⟩

/-- A core effect that writes no register outside `rs` and no flag outside `fs`. PC, `ime` with its
latch, `halted`, `fault` and `cost` are left open. -/
structure Changes (rs : List RegName) (fs : List FlagName) (s t : State) : Prop extends
    CoreEffect s t where
  reg : ∀ r ∉ rs, regVal r t = regVal r s
  flag : ∀ f ∉ fs, flagVal f t = flagVal f s

theorem Changes.refl {rs : List RegName} {fs : List FlagName} {s : State} : Changes rs fs s s :=
  ⟨.refl s, fun _ _ => rfl, fun _ _ => rfl⟩

/-- Changes compose; the second may write less than the whole frame. -/
theorem Changes.andThen {rs rs' : List RegName} {fs fs' : List FlagName} {s t u : State}
    (h : Changes rs fs s t) (h' : Changes rs' fs' t u)
    (hr : rs' ⊆ rs := by simp) (hf : fs' ⊆ fs := by simp) :
    Changes rs fs s u where
  toCoreEffect := h.toCoreEffect.trans h'.toCoreEffect
  reg r hn := (h'.reg r fun hm => hn (hr hm)).trans (h.reg r hn)
  flag f hn := (h'.flag f fun hm => hn (hf hm)).trans (h.flag f hn)

/-! ## One rule per update of the state -/

section

variable (s : State)

/-- An update that leaves storage, the timing unit, the trace and the parameters: of a concrete update,
which registers and flags it leaves is read off case by case. -/
theorem Changes.of_core_eq {rs : List RegName} {fs : List FlagName} {s t : State}
    (hcore : (t.mem, t.dots, t.ly, t.events, t.cfg) = (s.mem, s.dots, s.ly, s.events, s.cfg))
    (hreg : ∀ r ∉ rs, regVal r t = regVal r s := by intro r hr; cases r <;> simp_all [regVal])
    (hflag : ∀ f ∉ fs, flagVal f t = flagVal f s := by intro f hf; cases f <;> simp_all [flagVal]) :
    Changes rs fs s t := by
  simp only [Prod.mk.injEq] at hcore
  obtain ⟨hmem, hdots, hly, hevents, hcfg⟩ := hcore
  exact ⟨⟨hmem ▸ .refl, hdots, hly, hevents, hcfg⟩, hreg, hflag⟩

theorem raise_changes (x : Fault) : Changes [] [] s (s.raise x) := .of_core_eq rfl

theorem setCost_changes (n : Nat) : Changes [] [] s { s with cost := n } := .of_core_eq rfl

theorem poke_changes (a : Word) (v : Byte) (ha : writable a = true) : Changes [] [] s (s.poke a v) :=
  ⟨⟨.write .refl a v ha, rfl, rfl, rfl, rfl⟩, fun _ _ => rfl, fun _ _ => rfl⟩

theorem setPc_changes (v : Word) : Changes [] [] s { s with pc := v } := .of_core_eq rfl

/-- `ime`, its latch and `halted` stand outside every frame of registers and flags. -/
theorem setControl_changes (ime imePending halted : Bool) :
    Changes [] [] s { s with ime := ime, imePending := imePending, halted := halted } :=
  .of_core_eq rfl

theorem setSp_changes (v : Word) : Changes [.sp] [] s { s with sp := v } := .of_core_eq rfl

theorem setA_changes (v : Byte) : Changes [.a] [] s { s with a := v } := .of_core_eq rfl

theorem setFlags_changes (z n h c : Bool) : Changes [] [.z, .n, .h, .c] s (s.setFlags z n h c) :=
  .of_core_eq rfl

theorem setZnh_changes (z n h : Bool) : Changes [] [.z, .n, .h] s (s.setZnh z n h) := .of_core_eq rfl

theorem setNhc_changes (n h c : Bool) : Changes [] [.n, .h, .c] s (s.setNhc n h c) := .of_core_eq rfl

theorem setAlu_changes (o : AluOut) : Changes [.a] [.z, .n, .h, .c] s (s.setAlu o) :=
  (Changes.refl.andThen (setA_changes s o.res)).andThen (setFlags_changes _ o.z o.n o.h o.c)

theorem setRotA_changes (o : Byte × Bool) : Changes [.a] [.z, .n, .h, .c] s (s.setRotA o) :=
  (Changes.refl.andThen (setA_changes s o.1)).andThen (setFlags_changes _ false false false o.2)

theorem setBc_changes (v : Word) : Changes [.b, .c] [] s (s.setBc v) := .of_core_eq rfl

theorem setDe_changes (v : Word) : Changes [.d, .e] [] s (s.setDe v) := .of_core_eq rfl

theorem setHl_changes (v : Word) : Changes [.h, .l] [] s (s.setHl v) := .of_core_eq rfl

theorem setAf_changes (v : Word) : Changes [.a] [.z, .n, .h, .c] s (s.setAf v) :=
  (Changes.refl.andThen (setFlags_changes s _ _ _ _)).andThen (setA_changes _ (hiByte v))

theorem r16Set_changes (r : R16) (v : Word) : Changes (r16Regs r) [] s (r16Set r v s) := by
  cases r
  case bc => exact setBc_changes s v
  case de => exact setDe_changes s v
  case hl => exact setHl_changes s v
  case sp => exact setSp_changes s v

theorem stkSet_changes (r : R16Stk) (v : Word) :
    Changes (stkRegs r) (flagsWritten (.pop r)) s (stkSet r v s) := by
  cases r
  case bc => exact setBc_changes s v
  case de => exact setDe_changes s v
  case hl => exact setHl_changes s v
  case af => exact setAf_changes s v

theorem memAfter_changes (r : R16Mem) : Changes (memRegs r) [] s (memAfter r s) := by
  cases r
  case bc => exact .refl
  case de => exact .refl
  case hlInc => exact setHl_changes s _
  case hlDec => exact setHl_changes s _

end

/-! ## One rule per shared operation -/

/-- However a piece of an instruction ended, its state has the property. -/
def Res.EndsIn {α : Type} (P : State → Prop) (x : Res α) : Prop :=
  match x with
  | .ok _ s => P s
  | .raised s => P s

/-- A next state, if there is one, has the property. -/
def NextIn (P : State → Prop) (o : Out) : Prop := ∀ t, o = .next t → P t

theorem NextIn.fault {P : State → Prop} {f : Fault} : NextIn P (.fault f) := by rintro _ ⟨⟩

theorem NextIn.refused {P : State → Prop} {r : Refusal} : NextIn P (.refused r) := by rintro _ ⟨⟩

theorem NextIn.next {P : State → Prop} {t : State} (h : P t) : NextIn P (.next t) := by
  rintro _ ⟨⟩; exact h

theorem Res.EndsIn.mono {α : Type} {P Q : State → Prop} {x : Res α} (h : x.EndsIn P)
    (hPQ : ∀ t, P t → Q t) : x.EndsIn Q := by
  cases x with
  | ok v t => exact hPQ t h
  | raised t => exact hPQ t h

theorem Res.EndsIn.bind {α β : Type} {P : State → Prop} {x : Res α} {k : α → State → Res β}
    (hx : x.EndsIn P) (hk : ∀ v s, P s → (k v s).EndsIn P) : (x.bind k).EndsIn P := by
  cases x with
  | ok v s => exact hk v s hx
  | raised s => exact hx

theorem Res.EndsIn.run {α : Type} {P : State → Prop} {x : Res α} {k : α → State → Out}
    (hx : x.EndsIn P) (hk : ∀ v s, P s → NextIn P (k v s)) : NextIn P (x.run k) := by
  cases x with
  | ok v s => exact hk v s hx
  | raised s => exact .next hx

section

variable {rs : List RegName} {fs : List FlagName} {s t : State} (h : Changes rs fs s t)

include h

theorem Changes.raise (x : Fault) : Changes rs fs s (t.raise x) := h.andThen (raise_changes t x)

theorem Changes.setCost (n : Nat) : Changes rs fs s { t with cost := n } :=
  h.andThen (setCost_changes t n)

theorem Changes.charge (row : Row) (k : CostCase) : Changes rs fs s (t.charge row k) := h.setCost _

theorem Changes.setPc (v : Word) : Changes rs fs s { t with pc := v } := h.andThen (setPc_changes t v)

theorem Changes.setControl (ime imePending halted : Bool) :
    Changes rs fs s { t with ime := ime, imePending := imePending, halted := halted } :=
  h.andThen (setControl_changes t ime imePending halted)

theorem Changes.setSp (hsp : .sp ∈ rs) (v : Word) : Changes rs fs s { t with sp := v } :=
  h.andThen (setSp_changes t v) (by simpa using hsp)

theorem Changes.after_busRead (a : Word) : (busRead a t).EndsIn (Changes rs fs s) := by
  rcases busRead_cases a t with ⟨_, e⟩ | ⟨_, e⟩ <;> rw [e]
  · exact h
  · exact h.raise _

theorem Changes.after_busWrite (a : Word) (v : Byte) : (busWrite a v t).EndsIn (Changes rs fs s) := by
  rcases busWrite_cases a v t with ⟨hw, e⟩ | ⟨_, e⟩ <;> rw [e]
  · exact h.andThen (poke_changes t a v hw)
  · exact h.raise _

theorem Changes.after_busWrite2 (a v : Word) : (busWrite2 a v t).EndsIn (Changes rs fs s) :=
  (h.after_busWrite a (loByte v)).bind fun _ _ h => h.after_busWrite (a + 1) (hiByte v)

theorem Changes.after_fetch8 : (fetch8 t).EndsIn (Changes rs fs s) :=
  (h.after_busRead t.pc).bind fun _ _ h => h.setPc _

theorem Changes.after_readR8 (r : R8) : (readR8 r t).EndsIn (Changes rs fs s) := by
  rcases readR8_cases r t with e | ⟨_, _, e⟩ <;> rw [e]
  · exact h
  · exact h.raise _

theorem Changes.after_writeR8 (r : R8) (v : Byte)
    (hr : r8Regs r ⊆ rs := by simp) : (writeR8 r v t).EndsIn (Changes rs fs s) := by
  cases r
  case hlInd => exact h.after_busWrite t.hl v
  all_goals
    refine h.andThen (rs' := r8Regs _) (fs' := []) (.of_core_eq rfl (fun q hq => ?_) fun _ _ => rfl) hr
    cases q <;> simp_all [regVal, r8Regs]

theorem Changes.after_push16 (v : Word) (hsp : .sp ∈ rs := by simp) :
    (push16 v t).EndsIn (Changes rs fs s) :=
  ((h.setSp hsp _).after_busWrite _ _).bind fun _ _ h => (h.setSp hsp _).after_busWrite _ _

theorem Changes.after_pop16 (hsp : .sp ∈ rs := by simp) :
    (pop16 t).EndsIn (Changes rs fs s) :=
  (h.after_busRead t.sp).bind fun _ _ h =>
    ((h.setSp hsp _).after_busRead _).bind fun _ _ h => h.setSp hsp _

theorem Changes.after_callTo (v : Word) (hsp : .sp ∈ rs := by simp) :
    (callTo v t).EndsIn (Changes rs fs s) :=
  (h.after_push16 t.pc hsp).bind fun _ _ h => h.setPc v

theorem Changes.after_returnTo (hsp : .sp ∈ rs := by simp) :
    (returnTo t).EndsIn (Changes rs fs s) :=
  (h.after_pop16 hsp).bind fun v _ h => h.setPc v

theorem Changes.after_returnFromInterrupt (hsp : .sp ∈ rs := by simp) :
    (returnFromInterrupt t).EndsIn (Changes rs fs s) :=
  (h.after_pop16 hsp).bind fun v w h =>
    (h.setPc v).setControl true w.imePending w.halted

end

/-! ## The instructions -/

/-- What an instruction's rule may change: the registers and flags of its frame, and storage. -/
theorem exec_changes (i : Instr) (s : State) (hi : i ≠ .prefixCb) :
    NextIn (Changes (dests i s) (flagsWritten i) s) (exec i s) := by
  cases i with
  | prefixCb => exact absurd rfl hi
  | addAR8 r | adcAR8 r | subAR8 r | sbcAR8 r | andAR8 r | xorAR8 r | orAR8 r =>
    show NextIn (Changes [.a] [.z, .n, .h, .c] s) _
    exact (Changes.refl.after_readR8 r).run fun _ t h =>
      .next ((h.andThen (setAlu_changes t _)).charge _ _)
  | cpAR8 r =>
    show NextIn (Changes [] [.z, .n, .h, .c] s) _
    exact (Changes.refl.after_readR8 r).run fun _ t h =>
      .next ((h.andThen (setFlags_changes t _ _ _ _)).charge _ _)
  | addAN8 n | adcAN8 n | subAN8 n | sbcAN8 n | andAN8 n | xorAN8 n | orAN8 n =>
    show NextIn (Changes [.a] [.z, .n, .h, .c] s) _
    exact .next ((Changes.refl.andThen (setAlu_changes s _)).charge _ _)
  | cpAN8 n =>
    show NextIn (Changes [] [.z, .n, .h, .c] s) _
    exact .next ((Changes.refl.andThen (setFlags_changes s _ _ _ _)).charge _ _)
  | incR8 r | decR8 r =>
    show NextIn (Changes (r8Regs r) [.z, .n, .h] s) _
    exact (Changes.refl.after_readR8 r).run fun _ _ h => (h.after_writeR8 r _).run fun _ t h =>
      .next ((h.andThen (setZnh_changes t _ _ _)).charge _ _)
  | daa =>
    show NextIn (Changes [.a] [.z, .h, .c] s) _
    refine .next ((Changes.refl.andThen (rs' := [.a]) (fs' := [.z, .h, .c]) ?_).charge _ _)
    exact .of_core_eq rfl
  | cpl =>
    show NextIn (Changes [.a] [.n, .h] s) _
    refine .next ((Changes.refl.andThen (rs' := [.a]) (fs' := [.n, .h]) ?_).charge _ _)
    exact .of_core_eq rfl
  | scf | ccf =>
    show NextIn (Changes [] [.n, .h, .c] s) _
    exact .next ((Changes.refl.andThen (setNhc_changes s _ _ _)).charge _ _)
  | rlca | rrca | rla | rra =>
    show NextIn (Changes [.a] [.z, .n, .h, .c] s) _
    exact .next ((Changes.refl.andThen (setRotA_changes s _)).charge _ _)
  | rlcR8 r | rrcR8 r | rlR8 r | rrR8 r | slaR8 r | sraR8 r | swapR8 r | srlR8 r =>
    show NextIn (Changes (r8Regs r) [.z, .n, .h, .c] s) _
    exact (Changes.refl.after_readR8 r).run fun _ _ h => (h.after_writeR8 r _).run fun _ t h =>
      .next ((h.andThen (setFlags_changes t _ _ _ _)).charge _ _)
  | bitU3R8 u r =>
    show NextIn (Changes [] [.z, .n, .h] s) _
    exact (Changes.refl.after_readR8 r).run fun _ t h =>
      .next ((h.andThen (setZnh_changes t _ _ _)).charge _ _)
  | resU3R8 u r | setU3R8 u r =>
    show NextIn (Changes (r8Regs r) [] s) _
    exact (Changes.refl.after_readR8 r).run fun _ _ h => (h.after_writeR8 r _).run fun _ _ h =>
      .next (h.charge _ _)
  | addHlR16 r =>
    show NextIn (Changes [.h, .l] [.n, .h, .c] s) _
    exact .next (((Changes.refl.andThen (setHl_changes s _)).andThen (setNhc_changes _ _ _ _)).charge
      _ _)
  | addSpE8 e =>
    show NextIn (Changes [.sp] [.z, .n, .h, .c] s) _
    exact .next (((Changes.refl.andThen (setSp_changes s _)).andThen
      (setFlags_changes _ _ _ _ _)).charge _ _)
  | ldHlSpE8 e =>
    show NextIn (Changes [.h, .l] [.z, .n, .h, .c] s) _
    exact .next (((Changes.refl.andThen (setHl_changes s _)).andThen
      (setFlags_changes _ _ _ _ _)).charge _ _)
  | incR16 r | decR16 r | ldR16N16 r n =>
    show NextIn (Changes (r16Regs r) [] s) _
    exact .next ((Changes.refl.andThen (r16Set_changes s r _)).charge _ _)
  | ldSpHl =>
    show NextIn (Changes [.sp] [] s) _
    exact .next ((Changes.refl.andThen (setSp_changes s _)).charge _ _)
  | ldR8R8 dst src =>
    show NextIn (Changes (r8Regs dst) [] s) _
    exact (Changes.refl.after_readR8 src).run fun v _ h => (h.after_writeR8 dst v).run fun _ _ h =>
      .next (h.charge _ _)
  | ldR8N8 r n =>
    show NextIn (Changes (r8Regs r) [] s) _
    exact (Changes.refl.after_writeR8 r n).run fun _ _ h => .next (h.charge _ _)
  | ldR16MemA r =>
    show NextIn (Changes (memRegs r) [] s) _
    exact (Changes.refl.after_busWrite _ _).run fun _ t h =>
      .next ((h.andThen (memAfter_changes t r)).charge _ _)
  | ldAR16Mem r =>
    show NextIn (Changes (.a :: memRegs r) [] s) _
    exact (Changes.refl.after_busRead _).run fun v t h =>
      .next (((h.andThen (setA_changes t v)).andThen (memAfter_changes _ r)).charge _ _)
  | ldN16A n | ldhN8A n | ldhCA =>
    exact (Changes.refl.after_busWrite _ _).run fun _ _ h => .next (h.charge _ _)
  | ldAN16 n | ldhAN8 n | ldhAC =>
    show NextIn (Changes [.a] [] s) _
    exact (Changes.refl.after_busRead _).run fun v t h =>
      .next ((h.andThen (setA_changes t v)).charge _ _)
  | ldN16Sp n => exact (Changes.refl.after_busWrite2 n _).run fun _ _ h => .next (h.charge _ _)
  | push r =>
    show NextIn (Changes [.sp] [] s) _
    exact (Changes.refl.after_push16 _).run fun _ _ h => .next (h.charge _ _)
  | pop r =>
    show NextIn (Changes (.sp :: stkRegs r) (flagsWritten (.pop r)) s) _
    exact Changes.refl.after_pop16.run fun v t h =>
      .next ((h.andThen (stkSet_changes t r v)).charge _ _)
  | jpN16 n | jpHl | jr e => exact .next ((Changes.refl.setPc _).charge _ _)
  | jpCcN16 cc n | jrCc cc e =>
    simp only [exec, execJpCcN16, execJrCc]
    split
    · exact .next ((Changes.refl.setPc _).charge _ _)
    · exact .next (Changes.refl.charge _ _)
  | callN16 n | rst tgt =>
    show NextIn (Changes [.sp] [] s) _
    exact (Changes.refl.after_callTo _).run fun _ _ h => .next (h.charge _ _)
  | callCcN16 cc n =>
    show NextIn (Changes (if condHolds cc s then [.sp] else []) [] s) (execCallCcN16 cc n s)
    simp only [execCallCcN16]
    split
    · exact (Changes.refl.after_callTo n).run fun _ _ h => .next (h.charge _ _)
    · exact .next (Changes.refl.charge _ _)
  | ret =>
    show NextIn (Changes [.sp] [] s) _
    exact Changes.refl.after_returnTo.run fun _ _ h => .next (h.charge _ _)
  | reti =>
    show NextIn (Changes [.sp] [] s) _
    exact Changes.refl.after_returnFromInterrupt.run fun _ _ h => .next (h.charge _ _)
  | retCc cc =>
    show NextIn (Changes (if condHolds cc s then [.sp] else []) [] s) (execRetCc cc s)
    simp only [execRetCc]
    split
    · exact Changes.refl.after_returnTo.run fun _ _ h => .next (h.charge _ _)
    · exact .next (Changes.refl.charge _ _)
  | nop => exact .next (Changes.refl.charge _ _)
  | di => exact .next ((Changes.refl.setControl false false s.halted).charge _ _)
  | ei => exact .next ((Changes.refl.setControl s.ime true s.halted).charge _ _)
  | halt => exact .next ((Changes.refl.setControl s.ime s.imePending true).charge _ _)
  | stop n => exact .next (Changes.refl.raise _)

/-! ## The frames -/

/-- Settles O37: the register half of `exec_changes`. -/
theorem registerFrame : Obligations.RegisterFrame := by
  unfold Obligations.RegisterFrame
  intro i s t hi ht
  exact (exec_changes i s hi t ht).reg

/-- Settles O38: the flag half of `exec_changes`. -/
theorem flagFrame : Obligations.FlagFrame := by
  unfold Obligations.FlagFrame
  intro i s t hi ht
  exact (exec_changes i s hi t ht).flag

end Sys2Proof.Machine
end

section
/-! PROOFS. The invariant of R42: what a step is made of (a core effect, then at most the timing unit),
and that each part keeps the invariant. -/

namespace Sys2Proof.Machine

open Sys2Proof.Claims

/-! ## The storage half of the invariant -/

/-- What `Inv` says of storage: canonical form, and nothing listed in the prohibited regions. -/
def StorageOk (m : Memory) : Prop :=
  m.wf = true ∧ ∀ a : Word, readable a = false → m.read a.toNat = unlistedByte

theorem inv_iff (s : State) : Inv s ↔ StorageOk s.mem ∧ s.dots ≤ 455 ∧ s.ly ≤ 153 :=
  ⟨fun h => ⟨⟨h.memWf, h.noProhibited⟩, h.dots, h.ly⟩, fun ⟨⟨hw, hp⟩, hd, hl⟩ => ⟨hw, hp, hd, hl⟩⟩

/-- An address that refuses reads refuses writes (R61). -/
theorem writable_of_not_readable {a : Word} (h : readable a = false) : writable a = false := by
  by_contra hw
  rw [Bool.not_eq_false] at hw
  simp [readable_of_writable hw] at h

/-- Stores through the bus keep the storage half. -/
theorem StorageOk.busWrites {m m' : Memory} (h : StorageOk m) (hw : BusWrites m m') : StorageOk m' :=
  ⟨hw.wf h.1, fun a ha => (hw.read_eq (writable_of_not_readable ha)).trans (h.2 a ha)⟩

theorem CoreEffect.inv {s t : State} (h : CoreEffect s t) (hs : Inv s) : Inv t := by
  rw [inv_iff] at hs ⊢
  obtain ⟨hm, hd, hl⟩ := hs
  exact ⟨hm.busWrites h.mem, h.dots ▸ hd, h.ly ▸ hl⟩

/-! ## The timing unit -/

/-- A line's end stores at IF and at `LY_ADDR` only, both writable (R432, R438). -/
theorem advanceLine_busWrites (s : State) : BusWrites s.mem (advanceLine s).mem := by
  have hrender : (renderPhases s).mem = s.mem := by unfold renderPhases; split <;> rfl
  have hrequest (t : State) : BusWrites t.mem (requestVBlank t).mem := by
    unfold requestVBlank; split
    · exact .write .refl ifAddr _ ifAddr_writable
    · exact .refl
  have hwrap (t : State) : (wrapFrame t).mem = t.mem := by unfold wrapFrame; split <;> rfl
  refine .write ?_ (lyAddr _) _ (lyAddr_writable _)
  rw [hwrap]
  exact hrender ▸ hrequest { renderPhases s with ly := (renderPhases s).ly + 1 }

/-- The scanline after a line's end: the next one, or 0 after 153 (R438, R440). -/
theorem advanceLine_ly (s : State) :
    (advanceLine s).ly = if s.ly + 1 = 154 then 0 else s.ly + 1 := by
  have hrender : (renderPhases s).ly = s.ly := by unfold renderPhases; split <;> rfl
  have hrequest (t : State) : (requestVBlank t).ly = t.ly := by unfold requestVBlank; split <;> rfl
  have hwrap (t : State) : (wrapFrame t).ly = if t.ly = 154 then 0 else t.ly := by
    unfold wrapFrame; split <;> rfl
  show (wrapFrame (requestVBlank { renderPhases s with ly := (renderPhases s).ly + 1 })).ly = _
  rw [hwrap, hrequest, hrender]

/-- The loop of R437 keeps the storage half and the range of the scanline counter; with a round for
every line it leaves less than a line of dots. -/
theorem drainDots_inv (fuel : Nat) (s : State) (hm : StorageOk s.mem) (hl : s.ly ≤ 153)
    (hd : s.dots < 456 * (fuel + 1)) : Inv (drainDots fuel s) := by
  induction fuel generalizing s with
  | zero => exact (inv_iff s).2 ⟨hm, by omega, hl⟩
  | succ fuel ih =>
    unfold drainDots
    split
    · refine ih _ (hm.busWrites (advanceLine_busWrites { s with dots := s.dots - 456 })) ?_ ?_
      · rw [advanceLine_ly]
        show (if s.ly + 1 = 154 then 0 else s.ly + 1) ≤ 153
        split <;> omega
      · rw [advanceLine_dots]
        show s.dots - 456 < 456 * (fuel + 1)
        omega
    · exact (inv_iff s).2 ⟨hm, by omega, hl⟩

theorem ppuStep_inv (c : Nat) (s : State) (h : Inv s) : Inv (ppuStep c s) := by
  obtain ⟨hm, -, hl⟩ := (inv_iff s).1 h
  exact drainDots_inv _ _ hm hl (by simp only; omega)

/-! ## The parts of a step before the timing unit -/

/-- Fetching bytes writes no register and no flag. -/
theorem fetchBytes_changes (n : Nat) {s t : State} (h : Changes [] [] s t) :
    (fetchBytes n t).EndsIn (Changes [] [] s) := by
  induction n generalizing t with
  | zero => exact h
  | succ n ih => exact h.after_fetch8.bind fun _ _ h => (ih h).bind fun _ _ h => h

/-- Neither does the fetch of a whole instruction, whatever its bytes are (R111). -/
theorem fetchInstr_changes (s : State) : (fetchInstr s).EndsIn (Changes [] [] s) := by
  refine Changes.refl.after_fetch8.bind fun op t h => ?_
  rcases firstMatch templates op with _ | row
  · exact h.raise _
  · refine (fetchBytes_changes row.format.tailLength h).bind fun tail u h => ?_
    rcases decode (op :: tail) with _ | ⟨i, _⟩
    · exact h.raise _
    · exact h

theorem acknowledge_changes (s : State) (i : Nat) : Changes [] [] s (s.acknowledge i) :=
  (poke_changes s ifAddr _ ifAddr_writable).setControl false s.imePending s.halted

theorem Changes.after_enterInterrupt {rs : List RegName} {fs : List FlagName} {s t : State}
    (h : Changes rs fs s t) (i : Nat) (hsp : .sp ∈ rs := by simp) :
    (enterInterrupt i t).EndsIn (Changes rs fs s) :=
  ((h.andThen (acknowledge_changes t i)).after_push16 (t.acknowledge i).pc hsp).bind fun _ _ h =>
    (h.setPc (0x0040 + BitVec.ofNat 16 (8 * i))).setCost _

/-- The interrupt check writes SP alone of the registers (R430, R431). -/
theorem interruptCheck_changes (s : State) : (interruptCheck s).EndsIn (Changes [.sp] [] s) := by
  have hwake : Changes [.sp] [] s { s with halted := false } :=
    Changes.refl.setControl s.ime s.imePending false
  unfold interruptCheck
  split
  · split
    · exact (hwake.after_enterInterrupt _).bind fun _ _ h => h
    · exact hwake
  · exact .refl

/-- The second table runs a prefixed instruction's rule, or raises (R126). -/
theorem runCb_cases (op2 : Byte) (s : State) :
    (∃ i, i ≠ .prefixCb ∧ runCb op2 s = exec i s) ∨
    runCb op2 s = .next (s.raise (.illegalOpcode op2 (s.pc - 1))) := by
  unfold runCb
  split
  · exact .inl ⟨.rlcR8 _, nofun, rfl⟩
  · exact .inl ⟨.rrcR8 _, nofun, rfl⟩
  · exact .inl ⟨.rlR8 _, nofun, rfl⟩
  · exact .inl ⟨.rrR8 _, nofun, rfl⟩
  · exact .inl ⟨.slaR8 _, nofun, rfl⟩
  · exact .inl ⟨.sraR8 _, nofun, rfl⟩
  · exact .inl ⟨.swapR8 _, nofun, rfl⟩
  · exact .inl ⟨.srlR8 _, nofun, rfl⟩
  · exact .inl ⟨.bitU3R8 _ _, nofun, rfl⟩
  · exact .inl ⟨.resU3R8 _ _, nofun, rfl⟩
  · exact .inl ⟨.setU3R8 _ _, nofun, rfl⟩
  · exact .inr rfl

/-- Every instruction's rule is a core effect, the row of the byte 0xCB included. -/
theorem exec_coreEffect (i : Instr) (s : State) : NextIn (CoreEffect s) (exec i s) := by
  by_cases hi : i = .prefixCb
  · subst hi
    have hfetch : (fetch8 s).EndsIn (CoreEffect s) :=
      (Changes.after_fetch8 (.refl : Changes [] [] s s)).mono fun _ h => h.toCoreEffect
    refine hfetch.run fun op2 t h => ?_
    rcases runCb_cases op2 t with ⟨i, hi, e⟩ | e <;> rw [e]
    · exact fun u hu => h.trans (exec_changes i t hi u hu).toCoreEffect
    · exact .next (h.trans (raise_changes t _).toCoreEffect)
  · exact fun t ht => (exec_changes i s hi t ht).toCoreEffect

/-! ## The step -/

/-- What a step can do: a core effect, and after it the timing unit unless a condition was raised. -/
def StepEffect (s t : State) : Prop :=
  ∃ u, CoreEffect s u ∧ (t = u ∨ ∃ c, t = ppuStep c u)

theorem CoreEffect.stepEffect {s t : State} (h : CoreEffect s t) : StepEffect s t := ⟨t, h, .inl rfl⟩

theorem CoreEffect.ppuStep {s t : State} (h : CoreEffect s t) (c : Nat) :
    StepEffect s (ppuStep c t) := ⟨t, h, .inr ⟨c, rfl⟩⟩

theorem CoreEffect.trans_stepEffect {s t u : State} (h : CoreEffect s t) (h' : StepEffect t u) :
    StepEffect s u := by
  obtain ⟨w, hw, e⟩ := h'
  exact ⟨w, h.trans hw, e⟩

theorem latchStep_coreEffect (p : Bool) (s : State) : CoreEffect s (latchStep p s) := by
  unfold latchStep
  split
  · exact (setControl_changes s true false s.halted).toCoreEffect
  · exact .refl s

/-- Nothing follows a rule that raised (R412). -/
theorem finishStep_of_fault (p : Bool) {s : State} {f : Fault} (h : s.fault = some f) :
    finishStep p (.next s) = .next s := by simp only [finishStep, h]

/-- The latch step and the timing unit follow a rule that completed (R423, R446). -/
theorem finishStep_of_no_fault (p : Bool) {s : State} (h : s.fault = none) :
    finishStep p (.next s) = .next (ppuStep (latchStep p s).cost (latchStep p s)) := by
  simp only [finishStep, h]

/-- What follows an instruction's rule turns a core effect into a step's effect. -/
theorem finishStep_stepEffect (p : Bool) {s : State} {o : Out} (h : NextIn (CoreEffect s) o) :
    NextIn (StepEffect s) (finishStep p o) := by
  cases o with
  | next t =>
    have ht := h t rfl
    rcases hf : t.fault with _ | f
    · rw [finishStep_of_no_fault p hf]
      exact .next ((ht.trans (latchStep_coreEffect p t)).ppuStep _)
    · rw [finishStep_of_fault p hf]
      exact .next ht.stepEffect
  | fault f => exact .fault
  | refused r => exact .refused

theorem stepInstr_stepEffect (s : State) : NextIn (StepEffect s) (stepInstr s) := by
  have hfetch := (fetchInstr_changes s).mono fun _ h => h.toCoreEffect
  unfold stepInstr
  generalize fetchInstr s = fetched at hfetch ⊢
  rcases fetched with ⟨i, t⟩ | t
  · have ht : CoreEffect s t := hfetch
    simp only
    split
    · exact finishStep_stepEffect _ fun u hu => ht.trans (exec_coreEffect i t u hu)
    · exact .next (ht.trans (raise_changes t _).toCoreEffect).stepEffect
  · exact .next (CoreEffect.stepEffect hfetch)

theorem idleStep_stepEffect (s : State) : StepEffect s (idleStep s) :=
  (setCost_changes s (cyclesOf s.cfg .haltIdle)).toCoreEffect.ppuStep _

/-- Every step, from every state, is a core effect with at most one call of the timing unit after it. -/
theorem step_stepEffect (s : State) : NextIn (StepEffect s) (step s) := by
  rcases hf : s.fault with _ | f
  · have hcheck := (interruptCheck_changes s).mono fun _ h => h.toCoreEffect
    rw [step_of_no_fault s hf]
    generalize interruptCheck s = checked at hcheck ⊢
    rcases checked with ⟨_ | _, t⟩ | t
    · have ht : CoreEffect s t := hcheck
      simp only
      split
      · exact .next (ht.trans_stepEffect (idleStep_stepEffect t))
      · exact fun u hu => ht.trans_stepEffect (stepInstr_stepEffect t u hu)
    · exact .next (CoreEffect.ppuStep hcheck _)
    · exact .next (CoreEffect.stepEffect hcheck)
  · simp [NextIn, step, hf]

theorem StepEffect.inv {s t : State} (h : StepEffect s t) (hs : Inv s) : Inv t := by
  obtain ⟨u, hu, rfl | ⟨c, rfl⟩⟩ := h
  · exact hu.inv hs
  · exact ppuStep_inv c u (hu.inv hs)

/-- Settles O47: a step is a core effect and a call of the timing unit, and both keep `Inv`. -/
theorem stepKeepsInv : Obligations.StepKeepsInv := by
  unfold Obligations.StepKeepsInv
  intro s t hs ht
  exact (step_stepEffect s t ht).inv hs

end Sys2Proof.Machine
end

section
/-! PROOFS. Reset and the launch: the values of R45, which images are launched, and the invariant at the
start of a run. -/

namespace Sys2Proof.Machine

open Sys2Proof.Claims

/-! ## Reset -/

/-- The low nibble of F as a number (R24). -/
theorem flagByte_mod (s : State) : s.flagByte.toNat % 16 = 0 := by
  have h := congrArg BitVec.toNat (flagByte_low s)
  rw [BitVec.toNat_and] at h
  rwa [← Nat.and_two_pow_sub_one_eq_mod s.flagByte.toNat 4]

/-- Reset stores 0 at `LY_ADDR` (R45). -/
theorem resetOf_peek_lyAddr (L : Launch) : (State.resetOf L).peek (lyAddr L.cfg) = 0 :=
  read_write_same L.mem _ 0

/-- Every other byte is the launch's (R45). -/
theorem resetOf_peek_other (L : Launch) {a : Word} (h : a ≠ lyAddr L.cfg) :
    (State.resetOf L).peek a = L.mem.read a.toNat :=
  read_write_other L.mem _ _ 0 fun e => h (BitVec.eq_of_toNat_eq e)

/-- Settles O53: each value is the launch's or R45's own by the definition of `resetOf`; the published
byte and the low nibble of F are lemmas. -/
theorem resetValues : Obligations.ResetValues := by
  unfold Obligations.ResetValues
  refine ⟨fun L => ?_, rfl, rfl, rfl⟩
  exact ⟨rfl, rfl, rfl, rfl, rfl, rfl, rfl, rfl, rfl, rfl, resetOf_peek_lyAddr L,
    fun _ h => resetOf_peek_other L h, rfl, rfl, rfl, rfl, rfl, rfl, rfl, rfl, rfl, rfl, rfl,
    flagByte_mod _⟩

/-! ## The validation of a cartridge image -/

/-- The header checksum's fold takes every byte and one more off the start value (R473). -/
theorem foldl_headerSum (bytes : List Byte) (x : Byte) :
    ((bytes.foldl (fun x v => x - v - 1) x).toNat + sumBytes bytes + bytes.length) % 256 = x.toNat := by
  induction bytes generalizing x with
  | nil => exact Nat.mod_eq_of_lt x.isLt
  | cons v rest ih =>
    have hrest := ih (x - v - 1)
    have hsum : sumBytes (v :: rest) = v.toNat + sumBytes rest := by simp [sumBytes]
    rw [BitVec.toNat_sub, BitVec.toNat_sub] at hrest
    rw [List.foldl_cons, List.length_cons, hsum]
    have hx := x.isLt
    have hv := v.isLt
    rw [show (1 : Byte).toNat = 1 from rfl] at hrest
    omega

/-- The global checksum's fold adds every byte modulo 65536 (R474). -/
theorem foldl_byteSum (bytes : List Byte) (x : Word) :
    (bytes.foldl (fun x v => x + v.setWidth 16) x).toNat = (x.toNat + sumBytes bytes) % 65536 := by
  induction bytes generalizing x with
  | nil => exact (Nat.mod_eq_of_lt x.isLt).symm
  | cons v rest ih =>
    have hsum : sumBytes (v :: rest) = v.toNat + sumBytes rest := by simp [sumBytes]
    have hv := v.isLt
    rw [List.foldl_cons, ih, hsum, BitVec.toNat_add, BitVec.toNat_setWidth]
    omega

/-- The header checksum matches exactly when the sum of `ValidImage` is 0 modulo 256 (R473). -/
theorem expectedHeader_eq_iff (image : List Byte) (hl : image.length = 32768) (b : Byte) :
    expectedHeader image = b ↔
      (sumBytes ((image.drop 0x134).take 25) + 25 + b.toNat) % 256 = 0 := by
  have hlen : ((image.drop 0x134).take 25).length = 25 := by
    rw [List.length_take, List.length_drop, hl]
    rfl
  have hsum := foldl_headerSum ((image.drop 0x134).take 25) 0
  rw [hlen] at hsum
  change ((expectedHeader image).toNat + _ + 25) % 256 = 0 at hsum
  rw [← BitVec.toNat_inj]
  have he := (expectedHeader image).isLt
  have hb := b.isLt
  omega

/-- The global checksum as a number (R474). -/
theorem expectedGlobal_toNat (image : List Byte) :
    (expectedGlobal image).toNat = sumBytes (image.take 0x14E ++ image.drop 0x150) % 65536 := by
  rw [expectedGlobal, byteSum, foldl_byteSum, show (0 : Word).toNat = 0 from rfl, Nat.zero_add]

theorem storedGlobal_toNat (image : List Byte) : (storedGlobal image).toNat =
    256 * (imageByte image 0x14E).toNat + (imageByte image 0x14F).toNat := mkWord_toNat _ _

/-- A check that finds its defect, or else leaves the answer to the next one, finds none exactly if
both pass. -/
theorem ite_some_eq_none_iff {c : Prop} [Decidable c] {d : CartridgeDefect}
    {next : Option CartridgeDefect} : (if c then some d else next) = none ↔ ¬ c ∧ next = none := by
  split <;> simp [*]

/-- No defect is found exactly in a valid image (R471 to R474). -/
theorem cartridgeDefect_eq_none_iff (logoRef image : List Byte) :
    cartridgeDefect logoRef image = none ↔ ValidImage logoRef image := by
  unfold cartridgeDefect ValidImage
  simp only [ite_some_eq_none_iff, ne_eq, not_not, and_true]
  refine and_congr_right fun hl => and_congr_right fun _ => ?_
  rw [expectedHeader_eq_iff image hl, ← BitVec.toNat_inj, expectedGlobal_toNat, storedGlobal_toNat]

/-- A valid image is launched, and storage is then the image with the launch's bytes above it (R75,
R475). -/
theorem launch_of_valid {logoRef image : List Byte} (L : Launch) (h : ValidImage logoRef image) :
    launch logoRef image L =
      .next (State.resetOf { L with mem := romCells 0 image ++ dropRom L.mem }) := by
  have hdefect := (cartridgeDefect_eq_none_iff logoRef image).2 h
  simp only [launch, hdefect, loadCartridge_ok image L.mem h.1]

/-! ## The invariant at the start of a run -/

/-- Reset keeps the storage half of the invariant and starts the timing unit at 0 (R45). -/
theorem resetOf_inv (L : Launch) (h : StorageOk L.mem) : Inv (State.resetOf L) :=
  (inv_iff _).2 ⟨h.busWrites (.write .refl (lyAddr L.cfg) 0 (lyAddr_writable L.cfg)),
    Nat.zero_le _, Nat.zero_le _⟩

theorem storageOk_nil : StorageOk [] := ⟨rfl, fun _ _ => rfl⟩

/-- Loading an image of 32768 bytes keeps the storage half: the prohibited regions lie above ROM. -/
theorem StorageOk.load {image : List Byte} {m : Memory} (hl : image.length = 32768)
    (h : StorageOk m) : StorageOk (romCells 0 image ++ dropRom m) := by
  obtain ⟨hwf, hprohibited⟩ := h
  refine ⟨loadCartridge_wf image m _ hwf (loadCartridge_ok image m hl), fun a ha => ?_⟩
  have habove : 0x8000 ≤ a.toNat := by
    by_contra hlow
    rw [(readable_iff a).2 (by omega)] at ha
    exact absurd ha (by decide)
  rw [read_romCells_above _ _ _ _ (by omega), read_dropRom _ _ habove, hprohibited a ha]

/-- Settles O46: reset and the load of an image both keep the storage half of `Inv`. -/
theorem resetMeetsInv : Obligations.ResetMeetsInv := by
  unfold Obligations.ResetMeetsInv
  refine ⟨resetOf_inv Launch.standard storageOk_nil, fun logoRef image L hvalid hwf hprohibited => ?_⟩
  exact ⟨_, launch_of_valid L hvalid, resetOf_inv _ (StorageOk.load hvalid.1 ⟨hwf, hprohibited⟩)⟩

end Sys2Proof.Machine
end

section
/-! PROOFS. The bus (20_memory.md): the regions by their ranges, and what the one-byte and two-byte
operations do. -/

namespace Sys2Proof.Machine

open Sys2Proof.Claims

/-! ## The address map -/

/-- The last address of a region (R61). -/
def Region.last : Region → Nat
  | .romBank0 => 0x3FFF
  | .romBank1 => 0x7FFF
  | .videoRam => 0x9FFF
  | .externalRam => 0xBFFF
  | .workRam0 => 0xCFFF
  | .workRam1 => 0xDFFF
  | .echo => 0xFDFF
  | .oam => 0xFE9F
  | .unusable => 0xFEFF
  | .ioRegisters => 0xFF7F
  | .highRam => 0xFFFE
  | .interruptEnable => 0xFFFF

/-- An address lies in the range of its region (R61). -/
theorem regionOf_range (a : Word) :
    (regionOf a).first ≤ a.toNat ∧ a.toNat ≤ (regionOf a).last := by
  have := a.isLt
  unfold regionOf
  repeat' split
  all_goals simp only [Region.first, Region.last]
  all_goals omega

/-- The ranges of two regions do not meet (R61). -/
theorem Region.ranges_disjoint (r q : Region) : r = q ∨ r.last < q.first ∨ q.last < r.first := by
  cases r <;> cases q <;> decide

/-- The region of an address is the one whose range it lies in (R62). -/
theorem regionOf_eq_iff (a : Word) (r : Region) :
    regionOf a = r ↔ r.first ≤ a.toNat ∧ a.toNat ≤ r.last := by
  have hrange := regionOf_range a
  refine ⟨fun h => h ▸ hrange, fun h => ?_⟩
  rcases Region.ranges_disjoint (regionOf a) r with h' | h' | h'
  · exact h'
  · omega
  · omega

theorem regionOffset_add_first (a : Word) : regionOffset a + (regionOf a).first = a.toNat :=
  Nat.sub_add_cancel (regionOf_range a).1

/-- Settles O33: every range is `regionOf_eq_iff` at one region. -/
theorem addressMap : Obligations.AddressMap := by
  unfold Obligations.AddressMap
  intro a
  have hlt := a.isLt
  have hfirst : regionOf a = .romBank0 ↔ a.toNat ≤ 0x3FFF :=
    (regionOf_eq_iff a _).trans (and_iff_right (Nat.zero_le _))
  have hlast : regionOf a = .interruptEnable ↔ a.toNat = 0xFFFF :=
    (regionOf_eq_iff a _).trans ⟨fun h => le_antisymm h.2 h.1, fun h => ⟨h.ge, h.le⟩⟩
  refine ⟨hfirst, regionOf_eq_iff a _, regionOf_eq_iff a _, regionOf_eq_iff a _, regionOf_eq_iff a _,
    regionOf_eq_iff a _, regionOf_eq_iff a _, regionOf_eq_iff a _, regionOf_eq_iff a _,
    regionOf_eq_iff a _, regionOf_eq_iff a _, hlast, regionOffset_add_first a, ?_, ?_⟩
  · rw [Bool.eq_false_iff, ne_eq, readable_iff]
    omega
  · rw [Bool.eq_false_iff, ne_eq, writable_iff]
    omega

/-! ## The bus operations -/

/-- Settles O34: the two outcomes of a bus read and of a bus write. -/
theorem busReadAndWrite : Obligations.BusReadAndWrite := by
  unfold Obligations.BusReadAndWrite
  intro a v s
  refine ⟨rfl, fun h => ?_, fun h => busWrite_raised v s h⟩
  exact ⟨s.poke a v, busWrite_ok v s h, peek_poke_same s a v,
    fun x hx => peek_poke_other s a x v hx, rfl⟩

/-- A two-byte write where both addresses are writable (R78). -/
theorem busWrite2_ok {a : Word} (v : Word) (s : State) (h : writable a = true)
    (h' : writable (a + 1) = true) :
    busWrite2 a v s = .ok () ((s.poke a (loByte v)).poke (a + 1) (hiByte v)) := by
  simp only [busWrite2, busWrite_ok, h, h', Res.bind_ok]

/-- A two-byte read where both addresses are readable (R78). -/
theorem busRead2_ok {a : Word} (s : State) (h : readable a = true) (h' : readable (a + 1) = true) :
    busRead2 a s = .ok (mkWord (s.peek (a + 1)) (s.peek a)) s := by
  simp only [busRead2, busRead_ok, h, h', Res.bind_ok]

/-- Settles O35: what the write stored low byte first the read joins again. -/
theorem twoByteAccessLittleEndian : Obligations.TwoByteAccessLittleEndian := by
  unfold Obligations.TwoByteAccessLittleEndian
  intro a v s h h'
  have hne : a ≠ a + 1 := by bv_omega
  have hlow : ((s.poke a (loByte v)).poke (a + 1) (hiByte v)).peek a = loByte v := by
    rw [peek_poke_other _ _ _ _ hne, peek_poke_same]
  have hhigh : ((s.poke a (loByte v)).poke (a + 1) (hiByte v)).peek (a + 1) = hiByte v :=
    peek_poke_same _ _ _
  refine ⟨_, busWrite2_ok v s h h', ?_, ?_, ?_, fun x hx hx' => ?_, rfl⟩
  · rw [busRead2_ok _ (readable_of_writable h) (readable_of_writable h'), hlow, hhigh,
      mkWord_hiByte_loByte]
  · rw [hlow, loByte_toNat]
  · rw [hhigh, hiByte_toNat]
  · rw [peek_poke_other _ _ _ _ hx', peek_poke_other _ _ _ _ hx]

end Sys2Proof.Machine
end

section
/-! PROOFS. Where an instruction stores (R73, R74): one rule per operation that reads or writes the bus,
and their composition for every instruction. -/

namespace Sys2Proof.Machine

open Sys2Proof.Claims

/-! ## Stores at given addresses only -/

/-- Every byte outside `as` reads in `t` as in `s`. -/
def StoresOnly (as : List Word) (s t : State) : Prop := ∀ a ∉ as, t.peek a = s.peek a

theorem StoresOnly.of_mem_eq {as : List Word} {s t : State} (h : t.mem = s.mem) : StoresOnly as s t :=
  fun a _ => peek_congr s t h a

@[simp] theorem r16Set_mem (r : R16) (v : Word) (s : State) : (r16Set r v s).mem = s.mem := by
  cases r <;> rfl

@[simp] theorem stkSet_mem (r : R16Stk) (v : Word) (s : State) : (stkSet r v s).mem = s.mem := by
  cases r <;> rfl

@[simp] theorem memAfter_mem (r : R16Mem) (s : State) : (memAfter r s).mem = s.mem := by
  cases r <;> rfl

section

variable {as : List Word} {s t : State}

theorem StoresOnly.poke (h : StoresOnly as s t) {a : Word} (ha : a ∈ as) (v : Byte) :
    StoresOnly as s (t.poke a v) := fun x hx =>
  (peek_poke_other t a x v (ne_of_mem_of_not_mem ha hx).symm).trans (h x hx)

/-! ## Pieces that only read: storage is as before however they end -/

theorem after_busRead_mem_eq (a : Word) : (busRead a s).EndsIn fun t => t.mem = s.mem := by
  rcases busRead_cases a s with ⟨_, e⟩ | ⟨_, e⟩ <;> rw [e] <;> rfl

theorem after_pop16_mem_eq : (pop16 s).EndsIn fun t => t.mem = s.mem := by
  rcases pop16_cases s with e | e | e <;> rw [e] <;> rfl

theorem after_returnTo_mem_eq : (returnTo s).EndsIn fun t => t.mem = s.mem :=
  after_pop16_mem_eq.bind fun _ _ h => h

theorem after_returnFromInterrupt_mem_eq : (returnFromInterrupt s).EndsIn fun t => t.mem = s.mem :=
  after_pop16_mem_eq.bind fun _ _ h => h

/-- An instruction that reads an operand stores what it stores after the read. -/
theorem readR8_run_storesOnly {r : R8} {k : Byte → State → Out}
    (hk : ∀ v, NextIn (StoresOnly as s) (k v s)) : NextIn (StoresOnly as s) ((readR8 r s).run k) := by
  rcases readR8_cases r s with e | ⟨_, _, e⟩ <;> rw [e]
  · exact hk _
  · exact .next (.of_mem_eq rfl)

/-- An instruction whose pieces and whose end leave storage stores nothing. -/
theorem Res.EndsIn.run_mem_eq {α : Type} {x : Res α} {k : α → State → Out}
    (hx : x.EndsIn fun t => t.mem = s.mem)
    (hk : ∀ v t, t.mem = s.mem → NextIn (fun u => u.mem = s.mem) (k v t)) :
    NextIn (StoresOnly as s) (x.run k) :=
  fun t ht => .of_mem_eq (hx.run hk t ht)

/-! ## Pieces that store -/

theorem StoresOnly.after_busWrite (h : StoresOnly as s t) {a : Word} (ha : a ∈ as) (v : Byte) :
    (busWrite a v t).EndsIn (StoresOnly as s) := by
  rcases busWrite_cases a v t with ⟨_, e⟩ | ⟨_, e⟩ <;> rw [e]
  · exact h.poke ha v
  · exact h

theorem after_writeR8_storesOnly (r : R8) (v : Byte)
    (hr : r = .hlInd → s.hl ∈ as := by rintro rfl; exact List.mem_singleton_self _) :
    (writeR8 r v s).EndsIn (StoresOnly as s) := by
  cases r
  case hlInd => exact StoresOnly.after_busWrite (.of_mem_eq rfl) (hr rfl) v
  all_goals exact .of_mem_eq rfl

theorem after_push16_storesOnly (v : Word) : (push16 v s).EndsIn (StoresOnly [s.sp - 1, s.sp - 2] s) := by
  have hfirst : StoresOnly [s.sp - 1, s.sp - 2] s (s.poke (s.sp - 1) (hiByte v)) :=
    StoresOnly.poke (.of_mem_eq rfl) (by simp) _
  rcases push16_cases v s with ⟨e, _⟩ | ⟨e, _⟩ | ⟨e, _⟩ <;> rw [e]
  · exact hfirst.poke (a := s.sp - 2) (by simp) (loByte v)
  · exact .of_mem_eq rfl
  · exact hfirst

theorem after_callTo_storesOnly (v : Word) : (callTo v s).EndsIn (StoresOnly [s.sp - 1, s.sp - 2] s) :=
  (after_push16_storesOnly s.pc).bind fun _ _ h => h

end

/-! ## The instructions -/

/-- An instruction's rule stores at its addresses only (R74). -/
theorem exec_storesOnly (i : Instr) (s : State) (hi : i ≠ .prefixCb) :
    NextIn (StoresOnly (stores i s) s) (exec i s) := by
  cases i with
  | prefixCb => exact absurd rfl hi
  | nop | di | ei | halt | stop n | rlca | rrca | rla | rra | daa | cpl | scf | ccf | addAN8 n | adcAN8 n
  | subAN8 n | sbcAN8 n | andAN8 n | xorAN8 n | orAN8 n | cpAN8 n | addHlR16 r | addSpE8 e | ldHlSpE8 e
  | ldSpHl | jpN16 n | jpHl | jr e => exact .next (.of_mem_eq rfl)
  | incR16 r | decR16 r | ldR16N16 r n => exact .next (.of_mem_eq (r16Set_mem r _ s))
  | jpCcN16 cc n | jrCc cc e =>
    simp only [exec, execJpCcN16, execJrCc]
    split <;> exact .next (.of_mem_eq rfl)
  | addAR8 r | adcAR8 r | subAR8 r | sbcAR8 r | andAR8 r | xorAR8 r | orAR8 r | cpAR8 r | bitU3R8 u r =>
    exact readR8_run_storesOnly fun _ => .next (.of_mem_eq rfl)
  | incR8 r | decR8 r | rlcR8 r | rrcR8 r | rlR8 r | rrR8 r | slaR8 r | sraR8 r | swapR8 r | srlR8 r
  | resU3R8 u r | setU3R8 u r =>
    exact readR8_run_storesOnly fun _ => (after_writeR8_storesOnly r _).run fun _ _ h => .next h
  | ldR8R8 dst src =>
    exact readR8_run_storesOnly fun v => (after_writeR8_storesOnly dst v).run fun _ _ h => .next h
  | ldR8N8 r n => exact (after_writeR8_storesOnly r n).run fun _ _ h => .next h
  | ldR16MemA r =>
    refine (StoresOnly.after_busWrite (.of_mem_eq rfl) (List.mem_singleton_self _) s.a).run fun _ t h =>
      .next fun a ha => ?_
    exact (peek_congr t _ (memAfter_mem r t) a).trans (h a ha)
  | ldN16A n | ldhN8A n | ldhCA =>
    exact (StoresOnly.after_busWrite (.of_mem_eq rfl) (List.mem_singleton_self _) s.a).run
      fun _ _ h => .next h
  | ldN16Sp n =>
    have hlow := StoresOnly.after_busWrite (as := [n, n + 1]) (s := s) (.of_mem_eq rfl)
      (List.mem_cons_self) (loByte s.sp)
    have hboth : (busWrite2 n s.sp s).EndsIn (StoresOnly [n, n + 1] s) :=
      hlow.bind fun _ _ h => h.after_busWrite (by simp) (hiByte s.sp)
    exact hboth.run fun _ _ h => .next h
  | ldAR16Mem r =>
    exact (after_busRead_mem_eq (memAddr r s)).run_mem_eq fun v t h =>
      .next ((memAfter_mem r { t with a := v }).trans h)
  | ldAN16 n | ldhAN8 n | ldhAC => exact (after_busRead_mem_eq _).run_mem_eq fun _ _ h => .next h
  | push r => exact (after_push16_storesOnly _).run fun _ _ h => .next h
  | callN16 n | rst tgt => exact (after_callTo_storesOnly _).run fun _ _ h => .next h
  | callCcN16 cc n =>
    show NextIn (StoresOnly (if condHolds cc s then [s.sp - 1, s.sp - 2] else []) s) (execCallCcN16 cc n s)
    simp only [execCallCcN16]
    split
    · exact (after_callTo_storesOnly n).run fun _ _ h => .next h
    · exact .next (.of_mem_eq rfl)
  | pop r => exact after_pop16_mem_eq.run_mem_eq fun v t h => .next ((stkSet_mem r v t).trans h)
  | ret => exact after_returnTo_mem_eq.run_mem_eq fun _ _ h => .next h
  | reti => exact after_returnFromInterrupt_mem_eq.run_mem_eq fun _ _ h => .next h
  | retCc cc =>
    simp only [exec, execRetCc]
    split
    · exact after_returnTo_mem_eq.run_mem_eq fun _ _ h => .next h
    · exact .next (.of_mem_eq rfl)

/-- Settles O36: an instruction's rule stores at the addresses of `stores` only. -/
theorem memoryFrame : Obligations.MemoryFrame := by
  unfold Obligations.MemoryFrame
  intro i s t hi ht
  exact exec_storesOnly i s hi t ht

end Sys2Proof.Machine
end

section
/-! PROOFS. The frame of the timing unit, and what follows for a step: the ROM banks and the parameters
never change. -/

namespace Sys2Proof.Machine

open Sys2Proof.Claims

/-! ## The frame of the timing unit -/

/-- `t` differs from `s` in what the timing unit owns alone: its two values, the trace, the byte at
`LY_ADDR` and, with `INT_DISPATCH`, IF (R86, R442). -/
structure TimingEffect (s t : State) : Prop where
  rest : t = { s with dots := t.dots, ly := t.ly, mem := t.mem, events := t.events }
  peek : ∀ a, a ≠ lyAddr s.cfg → (s.cfg.intDispatch = true → a ≠ ifAddr) → t.peek a = s.peek a

theorem TimingEffect.cfg {s t : State} (h : TimingEffect s t) : t.cfg = s.cfg := by
  rw [h.rest]

theorem TimingEffect.refl (s : State) : TimingEffect s s := ⟨rfl, fun _ _ _ => rfl⟩

theorem TimingEffect.trans {s t u : State} (h : TimingEffect s t) (h' : TimingEffect t u) :
    TimingEffect s u where
  rest := h'.rest.trans (by rw [h.rest])
  peek a hly hif := by
    have hstep := h'.peek a (h.cfg ▸ hly) (h.cfg ▸ hif)
    exact hstep.trans (h.peek a hly hif)

theorem setDots_timingEffect (s : State) (n : Nat) : TimingEffect s { s with dots := n } :=
  ⟨rfl, fun _ _ _ => rfl⟩

theorem setLy_timingEffect (s : State) (n : Nat) : TimingEffect s { s with ly := n } :=
  ⟨rfl, fun _ _ _ => rfl⟩

theorem emit_timingEffect (s : State) (es : List Event) : TimingEffect s (s.emit es) :=
  ⟨rfl, fun _ _ _ => rfl⟩

theorem renderPhases_timingEffect (s : State) : TimingEffect s (renderPhases s) := by
  unfold renderPhases
  split
  · exact emit_timingEffect s _
  · exact .refl s

/-- The request stores at IF, with `INT_DISPATCH` only (R432). -/
theorem requestVBlank_timingEffect (s : State) : TimingEffect s (requestVBlank s) := by
  unfold requestVBlank
  split
  case isTrue h =>
    have hd : s.cfg.intDispatch = true := by simp only [Bool.and_eq_true] at h; exact h.1
    exact ⟨rfl, fun a _ hif => peek_poke_other s _ a _ (hif hd)⟩
  case isFalse => exact .refl s

theorem wrapFrame_timingEffect (s : State) : TimingEffect s (wrapFrame s) := by
  unfold wrapFrame
  split
  · exact (emit_timingEffect s _).trans (setLy_timingEffect _ 0)
  · exact .refl s

theorem publishLy_timingEffect (s : State) : TimingEffect s (publishLy s) :=
  ⟨rfl, fun a hly _ => peek_poke_other s _ a _ hly⟩

theorem advanceLine_timingEffect (s : State) : TimingEffect s (advanceLine s) :=
  (renderPhases_timingEffect s).trans <| (setLy_timingEffect _ _).trans <|
    (requestVBlank_timingEffect _).trans <| (wrapFrame_timingEffect _).trans (publishLy_timingEffect _)

theorem drainDots_timingEffect (fuel : Nat) (s : State) : TimingEffect s (drainDots fuel s) := by
  induction fuel generalizing s with
  | zero => exact .refl s
  | succ fuel ih =>
    unfold drainDots
    split
    · exact (setDots_timingEffect s _).trans ((advanceLine_timingEffect _).trans (ih _))
    · exact .refl s

theorem ppuStep_timingEffect (c : Nat) (s : State) : TimingEffect s (ppuStep c s) :=
  (setDots_timingEffect s _).trans (drainDots_timingEffect _ _)

/-! ## The published byte -/

/-- The byte at `LY_ADDR` is the scanline (R441). -/
def Published (s : State) : Prop := s.peek (lyAddr s.cfg) = BitVec.ofNat 8 s.ly

/-- A line's end publishes last, so whatever it stored before (R438). -/
theorem advanceLine_published (s : State) : Published (advanceLine s) := by
  show (publishLy _).peek (lyAddr _) = _
  exact peek_poke_same _ _ _

theorem drainDots_published (fuel : Nat) {s : State} (h : Published s) :
    Published (drainDots fuel s) := by
  induction fuel generalizing s with
  | zero => exact h
  | succ fuel ih =>
    unfold drainDots
    split
    · exact ih (advanceLine_published _)
    · exact h

theorem ppuStep_zero_published {s : State} (h : Published s) : Published (ppuStep 0 s) :=
  drainDots_published _ h

/-- Settles O50: the frame and the published byte by induction on the lines ended, the rest by
`ppuStep_within_line` and `ppuStep_line`. -/
theorem timingUnitFrame : Obligations.TimingUnitFrame := by
  unfold Obligations.TimingUnitFrame
  intro s c
  have hframe := ppuStep_timingEffect c s
  refine ⟨hframe.rest, hframe.peek, fun h => ?_, ppuStep_within_line c s, fun h h2 => ?_,
    ppuStep_line c s⟩
  · have hpub : Published (ppuStep c s) := by
      rw [ppuStep_line c s h]
      exact ppuStep_zero_published (advanceLine_published _)
    rw [← hframe.cfg]
    exact hpub
  · rw [ppuStep_line c s h]
    refine ppuStep_within_line 0 _ ?_
    rw [advanceLine_dots]
    show s.dots + 4 * c - 456 + 4 * 0 < 456
    omega

/-! ## ROM and the parameters -/

/-- No address of the two ROM banks is `LY_ADDR` or IF (R37, R427). -/
theorem ne_lyAddr_of_rom {a : Word} (h : a.toNat ≤ 0x7FFF) (cfg : Config) : a ≠ lyAddr cfg := by
  rintro rfl
  have hw := (writable_iff _).1 (lyAddr_writable cfg)
  omega

theorem ne_ifAddr_of_rom {a : Word} (h : a.toNat ≤ 0x7FFF) : a ≠ ifAddr := by
  rintro rfl
  exact absurd h (by decide)

theorem not_writable_of_rom {a : Word} (h : a.toNat ≤ 0x7FFF) : writable a = false := by
  rw [Bool.eq_false_iff, ne_eq, writable_iff]
  omega

/-- A core effect stores through the bus, which refuses ROM (R63). -/
theorem CoreEffect.rom_eq {s t : State} (h : CoreEffect s t) {a : Word} (ha : a.toNat ≤ 0x7FFF) :
    t.peek a = s.peek a := h.mem.read_eq (not_writable_of_rom ha)

theorem TimingEffect.rom_eq {s t : State} (h : TimingEffect s t) {a : Word} (ha : a.toNat ≤ 0x7FFF) :
    t.peek a = s.peek a := h.peek a (ne_lyAddr_of_rom ha _) fun _ => ne_ifAddr_of_rom ha

/-- Settles O45: neither part of a step, a core effect or a call of the timing unit, stores in ROM or
writes a parameter. -/
theorem romNeverChanges : Obligations.RomNeverChanges := by
  unfold Obligations.RomNeverChanges
  intro s t ht
  obtain ⟨u, hu, rfl | ⟨c, rfl⟩⟩ := step_stepEffect s t ht
  · exact ⟨hu.cfg, fun a ha => hu.rom_eq ha⟩
  · have hppu := ppuStep_timingEffect c u
    exact ⟨hppu.cfg.trans hu.cfg, fun a ha => (hppu.rom_eq ha).trans (hu.rom_eq ha)⟩

end Sys2Proof.Machine
end

section
/-! PROOFS. The conditions of the fetch (R411): what a step raises before an instruction's rule runs. -/

namespace Sys2Proof.Machine

open Sys2Proof.Claims

/-- A state that fetches runs the instruction at PC (R446). -/
theorem step_of_fetches {s : State} (h : Fetches s) : step s = stepInstr s := by
  obtain ⟨hfault, hhalted, hnone⟩ := h
  simp only [step_of_no_fault s hfault, interruptCheck_not_taken s hhalted hnone, hhalted,
    Bool.false_eq_true, if_false]

/-- What the fetch raises is what the step answers (R412). -/
theorem stepInstr_of_raised {s t : State} (h : fetchInstr s = .raised t) : stepInstr s = .next t := by
  simp only [stepInstr, h]

theorem pcPlus_zero (s : State) : pcPlus s 0 = s.pc := BitVec.add_zero s.pc

/-- Past one byte, the addresses behind PC are those from the second on (R10). -/
theorem pcPlus_setPc_succ (s : State) (k : Nat) :
    pcPlus { s with pc := s.pc + 1 } k = pcPlus s (k + 1) := by
  simp only [pcPlus]
  bv_omega

/-- The fetch of `n` bytes stops at the first one that cannot be read, with PC at it (R29, R89). -/
theorem fetchBytes_raised {n k : Nat} (hk : k < n) {s : State}
    (hread : ∀ j < k, readable (pcPlus s j) = true) (hstop : readable (pcPlus s k) = false) :
    fetchBytes n s = .raised ({ s with pc := pcPlus s k }.raise
      (.illegalMemoryAccess (pcPlus s k) .read)) := by
  induction n generalizing k s with
  | zero => exact absurd hk (Nat.not_lt_zero k)
  | succ n ih =>
    rw [fetchBytes]
    cases k with
    | zero =>
      rw [pcPlus_zero] at hstop ⊢
      rw [fetch8_raised s hstop, Res.bind_raised]
    | succ k =>
      have hfirst : readable s.pc = true := pcPlus_zero s ▸ hread 0 (Nat.succ_pos k)
      have hrest := ih (k := k) (s := { s with pc := s.pc + 1 }) (Nat.lt_of_succ_lt_succ hk)
        (fun j hj => pcPlus_setPc_succ s j ▸ hread (j + 1) (Nat.succ_lt_succ hj))
        (pcPlus_setPc_succ s k ▸ hstop)
      rw [fetch8_ok s hfirst, Res.bind_ok, hrest, Res.bind_raised, pcPlus_setPc_succ]

theorem fetchInstr_raised_of_unreadable (s : State) (h : readable s.pc = false) :
    fetchInstr s = .raised (s.raise (.illegalMemoryAccess s.pc .read)) := by
  rw [fetchInstr, fetch8_raised s h, Res.bind_raised]

/-- A byte that matches no template is reported with its address, PC one past it (R127, R401). -/
theorem fetchInstr_raised_of_no_template {s : State} (h : readable s.pc = true)
    (hop : firstMatch templates (s.peek s.pc) = none) : fetchInstr s =
      .raised ({ s with pc := s.pc + 1 }.raise (.illegalOpcode (s.peek s.pc) s.pc)) := by
  simp only [fetchInstr, fetch8_ok s h, Res.bind_ok, hop]

/-- Once the opcode has selected a row, a byte behind it that cannot be read is the condition (R89). -/
theorem fetchInstr_raised_of_tail {s t : State} {row : Row} (h : readable s.pc = true)
    (hop : firstMatch templates (s.peek s.pc) = some row)
    (htail : fetchBytes row.format.tailLength { s with pc := s.pc + 1 } = .raised t) :
    fetchInstr s = .raised t := by
  simp only [fetchInstr, fetch8_ok s h, Res.bind_ok, hop, htail, Res.bind_raised]

/-- Settles O41: the three ways in which a fetch raises. -/
theorem fetchConditions : Obligations.FetchConditions := by
  unfold Obligations.FetchConditions
  intro s hs
  rw [step_of_fetches hs]
  refine ⟨fun h => ?_, fun h hop => ?_, fun row k hop hpos hk hread hstop => ?_⟩
  · exact stepInstr_of_raised (fetchInstr_raised_of_unreadable s h)
  · exact stepInstr_of_raised (fetchInstr_raised_of_no_template h hop)
  · obtain ⟨k, rfl⟩ := Nat.exists_eq_succ_of_ne_zero hpos.ne'
    have htail := fetchBytes_raised (k := k) (s := { s with pc := s.pc + 1 }) hk
      (fun j hj => pcPlus_setPc_succ s j ▸ hread (j + 1) (Nat.succ_lt_succ hj))
      (pcPlus_setPc_succ s k ▸ hstop)
    rw [pcPlus_setPc_succ] at htail
    have hfirst : readable s.pc = true := pcPlus_zero s ▸ hread 0 hpos
    exact stepInstr_of_raised (fetchInstr_raised_of_tail hfirst hop htail)

end Sys2Proof.Machine
end

section
/-! PROOFS. The launch (R471 to R475): which images are launched, and what storage then holds. -/

namespace Sys2Proof.Machine

open Sys2Proof.Claims

/-- Storage without its ROM reads as unlisted below 0x8000. -/
theorem read_dropRom_below (m : Memory) {a : Nat} (h : a < 0x8000) :
    (dropRom m).read a = unlistedByte := by
  induction m with
  | nil => rfl
  | cons cell m ih =>
    obtain ⟨k, v⟩ := cell
    simp only [dropRom, List.filter_cons]
    split
    case isTrue hk =>
      have hne : k ≠ a := by simp only [decide_eq_true_eq] at hk; omega
      rw [Memory.read, if_neg hne]
      exact ih
    case isFalse => exact ih

theorem read_romCells_below {low a : Nat} (image : List Byte) (m : Memory) (h : a < low) :
    (romCells low image ++ m).read a = m.read a := by
  induction image generalizing low with
  | nil => rfl
  | cons v rest ih =>
    rw [romCells]
    split
    · exact ih (by omega)
    · rw [List.cons_append, Memory.read, if_neg (by omega), ih (by omega)]

/-- The entries of an image read back as its bytes where nothing else is listed (R75). -/
theorem read_romCells_add {low : Nat} (image : List Byte) {m : Memory} {j : Nat}
    (hm : m.read (low + j) = unlistedByte) :
    (romCells low image ++ m).read (low + j) = imageByte image j := by
  induction image generalizing low j with
  | nil => exact hm
  | cons v rest ih =>
    rw [romCells]
    cases j with
    | zero =>
      show _ = v
      split
      case isTrue hv =>
        exact (read_romCells_below rest m (Nat.lt_succ_self low)).trans (hm.trans hv.symm)
      case isFalse => exact if_pos rfl
    | succ j =>
      have hindex : low + (j + 1) = low + 1 + j := by omega
      rw [hindex] at hm ⊢
      show _ = imageByte rest j
      split
      · exact ih hm
      · rw [List.cons_append, Memory.read, if_neg (by omega)]
        exact ih hm

/-- An image that is not valid is refused, and nothing runs (R475). -/
theorem launch_of_not_valid {logoRef image : List Byte} (L : Launch) (h : ¬ ValidImage logoRef image) :
    ∃ d, launch logoRef image L = .fault (.malformedCartridge d) := by
  rw [← cartridgeDefect_eq_none_iff] at h
  obtain ⟨d, hd⟩ := Option.ne_none_iff_exists'.1 h
  exact ⟨d, by simp only [launch, hd]⟩

/-- The length is looked at first (R471; the order is the model's, log 8). -/
theorem launch_of_length_ne (logoRef : List Byte) {image : List Byte} (L : Launch)
    (h : image.length ≠ 32768) :
    launch logoRef image L = .fault (.malformedCartridge (.length image.length)) := by
  simp only [launch, cartridgeDefect, if_pos h]

/-- Settles O54: a valid image is launched into the storage of `launch_of_valid`, any other refused. -/
theorem launchNeedsValidImage : Obligations.LaunchNeedsValidImage := by
  unfold Obligations.LaunchNeedsValidImage
  intro logoRef image L
  refine ⟨fun hvalid => ?_, launch_of_not_valid L,
    fun h => ⟨launch_of_length_ne logoRef L h, if_neg h⟩⟩
  have hlen : image.length = 32768 := hvalid.1
  refine ⟨_, launch_of_valid L hvalid, rfl, rfl, fun a ha => ?_, fun a ha hly => ?_⟩
  · have hbelow := read_dropRom_below L.mem (Nat.lt_succ_of_le ha)
    rw [← Nat.zero_add a.toNat] at hbelow
    have himage := read_romCells_add image hbelow
    rw [Nat.zero_add] at himage
    exact (resetOf_peek_other _ (ne_lyAddr_of_rom ha _)).trans himage
  · have habove : (romCells 0 image ++ dropRom L.mem).read a.toNat = L.mem.read a.toNat :=
      (read_romCells_above 0 image _ _ (by omega)).trans (read_dropRom _ _ ha)
    exact (resetOf_peek_other { L with mem := romCells 0 image ++ dropRom L.mem } hly).trans habove

end Sys2Proof.Machine
end

section
/-! PROOFS. The Tile Codec (20_memory.md section 5): the pixels of a row, the rows of a tile in video RAM,
and which row a write can change. -/

namespace Sys2Proof.Machine

open Sys2Proof.Claims

/-! ## Pixels -/

theorem getLsbD_toNat (b : Byte) (i : Nat) : (b.getLsbD i).toNat = b.toNat / 2 ^ i % 2 :=
  Nat.toNat_testBit b.toNat i

theorem decodeRow_length (byte0 byte1 : Byte) : (decodeRow byte0 byte1).length = 8 := rfl

theorem decodeRow_getElem? (byte0 byte1 : Byte) {p : Nat} (hp : p < 8) :
    (decodeRow byte0 byte1)[p]? = some (rowPixel byte0 byte1 p) := by
  simp [decodeRow, hp]

/-- Pixel `p` in numbers (R91). -/
theorem rowPixel_eq (byte0 byte1 : Byte) (p : Nat) : rowPixel byte0 byte1 p =
    2 * (byte1.toNat / 2 ^ (7 - p) % 2) + byte0.toNat / 2 ^ (7 - p) % 2 := by
  rw [rowPixel, getLsbD_toNat, getLsbD_toNat]

/-! ## Rows -/

/-- The address of the first byte of row `r` of a tile (R92, R93). -/
def rowAddr (k n r : Nat) : Nat := tileAddr k n + 2 * r

theorem tileGrid_length (s : State) (k n : Nat) : (tileGrid s k n).length = 8 := rfl

/-- Each of the eight rows is decoded from its two bytes (R92). -/
theorem tileGrid_getElem? (s : State) (k n : Nat) {r : Nat} (hr : r < 8) : (tileGrid s k n)[r]? =
    some (decodeRow (s.mem.read (rowAddr k n r)) (s.mem.read (rowAddr k n r + 1))) := by
  interval_cases r <;> rfl

/-- Every row lies in video RAM's three blocks of tile data (R65). -/
theorem rowAddr_range {k n r : Nat} (hk : k < 3) (hn : n < 128) (hr : r < 8) :
    0x8000 ≤ rowAddr k n r ∧ rowAddr k n r + 1 ≤ 0x97FF := by
  simp only [rowAddr, tileAddr]
  omega

/-! ## Writes -/

/-- A write at neither of a row's two bytes leaves the row. -/
theorem tileGrid_poke_getElem?_of_ne (s : State) {a : Word} (v : Byte) {k n r : Nat} (hr : r < 8)
    (hlow : rowAddr k n r ≠ a.toNat) (hhigh : rowAddr k n r + 1 ≠ a.toNat) :
    (tileGrid (s.poke a v) k n)[r]? = (tileGrid s k n)[r]? := by
  rw [tileGrid_getElem? _ k n hr, tileGrid_getElem? s k n hr, State.poke_mem,
    read_write_other _ _ _ _ hlow, read_write_other _ _ _ _ hhigh]

/-- A write outside the tile-data blocks leaves every tile (R66). -/
theorem tileGrid_poke_of_outside (s : State) {a : Word} (v : Byte) {k n : Nat} (hk : k < 3)
    (hn : n < 128) (ha : a.toNat < 0x8000 ∨ 0x97FF < a.toNat) :
    tileGrid (s.poke a v) k n = tileGrid s k n := by
  refine List.ext_getElem? fun r => ?_
  rcases Nat.lt_or_ge r 8 with hr | hr
  · have hrange := rowAddr_range hk hn hr
    exact tileGrid_poke_getElem?_of_ne s v hr (by omega) (by omega)
  · rw [List.getElem?_eq_none (tileGrid_length _ k n ▸ hr),
      List.getElem?_eq_none (tileGrid_length s k n ▸ hr)]

/-- The block and the offset in it, from an address taken apart (R65). -/
theorem tileBlock_eq_some {a : Word} {block offset : Nat} (hle : a.toNat ≤ 0x97FF)
    (ha : a.toNat = 0x8000 + 0x800 * block + offset) (ho : offset < 0x800) :
    tileBlock a = some (block, offset) := by
  have hblock : (a.toNat - 0x8000) / 0x800 = block := by omega
  have hoffset : (a.toNat - 0x8000) % 0x800 = offset := by omega
  rw [tileBlock, if_pos (by omega), hblock, hoffset]

theorem tileBlock_eq_none {a : Word} (h : a.toNat < 0x8000 ∨ 0x97FF < a.toNat) : tileBlock a = none :=
  if_neg (by omega)

/-- Settles O60: pixels and rows by their own lemmas; a write reaches a row only through one of its two
bytes, whose addresses give back block, tile and row. -/
theorem tileCodecMapping : Obligations.TileCodecMapping := by
  unfold Obligations.TileCodecMapping
  refine ⟨fun byte0 byte1 => ⟨decodeRow_length _ _, fun p hp => ?_⟩,
    fun s k n r hr => ⟨tileGrid_length s k n, tileGrid_getElem? s k n hr⟩,
    fun s a v block offset k n r _ hle ha ho => ⟨tileBlock_eq_some hle ha ho, by omega, ?_⟩,
    fun s a v k n ha => ⟨tileBlock_eq_none ha, fun hk hn => tileGrid_poke_of_outside s v hk hn ha⟩⟩
  · rw [decodeRow_getElem? _ _ hp, rowPixel_eq]
  · intro _ hn hr hother
    have hlow : rowAddr k n r ≠ a.toNat := by simp only [rowAddr, tileAddr]; omega
    have hhigh : rowAddr k n r + 1 ≠ a.toNat := by simp only [rowAddr, tileAddr]; omega
    exact tileGrid_poke_getElem?_of_ne s v hr hlow hhigh

end Sys2Proof.Machine
end

section
/-! PROOFS. The decoder against the encoder (R110 to R130). An encoding has three parts: 0xCB where the
format is prefixed, an opcode byte of the format's table, the format's immediate bytes. `assemble` takes
them to the instruction, `encode` back, and `Reads` says what the decoder answers in these terms. -/

namespace Sys2Proof

/-! ## Operand codes and opcode fields -/

@[simp] theorem R8.ofBits_bits (r : R8) : R8.ofBits r.bits = r := by cases r <;> rfl

@[simp] theorem R16.ofBits_bits (r : R16) : R16.ofBits r.bits = r := by cases r <;> rfl

@[simp] theorem R16Stk.ofBits_bits (r : R16Stk) : R16Stk.ofBits r.bits = r := by cases r <;> rfl

@[simp] theorem R16Mem.ofBits_bits (r : R16Mem) : R16Mem.ofBits r.bits = r := by cases r <;> rfl

@[simp] theorem Cond.ofBits_bits (cc : Cond) : Cond.ofBits cc.bits = cc := by cases cc <;> rfl

@[simp] theorem dddField_opByte233 (x : BitVec 2) (y z : BitVec 3) :
    dddField (opByte233 x y z) = y := by
  revert x y z; decide

@[simp] theorem sssField_opByte233 (x : BitVec 2) (y z : BitVec 3) :
    sssField (opByte233 x y z) = z := by
  revert x y z; decide

@[simp] theorem rrField_opByte224 (x y : BitVec 2) (z : BitVec 4) :
    rrField (opByte224 x y z) = y := by
  revert x y z; decide

@[simp] theorem ccField_opByte323 (x : BitVec 3) (y : BitVec 2) (z : BitVec 3) :
    ccField (opByte323 x y z) = y := by
  revert x y z; decide

/-! ## The parts of an encoding -/

/-- The table in which the opcode byte is looked up (R111, R112). -/
@[simp] def Format.table : Format → List Template
  | .cbOp => templatesCb
  | .op | .opN8 | .opE8 | .opN16 | .prefixByte => templates

/-- The bytes in front of the opcode byte (R110). -/
@[simp] def Format.prefixBytes : Format → List Byte
  | .cbOp => [0xCB]
  | .op | .opN8 | .opE8 | .opN16 | .prefixByte => []

/-- The immediate bytes, in fetch order (R113, R120 to R122). -/
@[simp] def Format.immediates (f : Format) (lo hi : Byte) : List Byte :=
  match f with
  | .op | .cbOp | .prefixByte => []
  | .opN8 | .opE8 => [lo]
  | .opN16 => [lo, hi]

/-- The opcode byte of an instruction, behind 0xCB where it is prefixed. -/
def Instr.opcode (i : Instr) : Byte := (encode i).getD i.row.format.prefixBytes.length 0

/-- The first immediate byte of an instruction that has one. -/
def Instr.immLo (i : Instr) : Byte := (encode i).getD 1 0

/-- The second immediate byte of an instruction that has one. -/
def Instr.immHi (i : Instr) : Byte := (encode i).getD 2 0

/-- R130, R133. -/
theorem encode_length (i : Instr) : (encode i).length = i.row.format.length := by cases i <;> rfl

/-- A row looks at no more immediate bytes than its format has. -/
theorem assemble_congr {row : Row} {lo hi lo' hi' : Byte} (op : Byte)
    (h : row.format.immediates lo hi = row.format.immediates lo' hi') :
    assemble row op lo hi = assemble row op lo' hi' := by
  cases row <;> simp_all [Row.format, assemble]

theorem row_ne_prefixCb {i : Instr} (hwf : i.wellFormed = true) : i.row ≠ .prefixCb := by
  cases i
  case prefixCb => cases hwf
  all_goals exact nofun

/-- The parts of an instruction's encoding make the instruction. -/
theorem assemble_parts (i : Instr) : assemble i.row i.opcode i.immLo i.immHi = i := by
  cases i <;> simp [assemble, Instr.row, Instr.opcode, Instr.immLo, Instr.immHi, Row.format, encode]

/-! ## What a template lookup finds -/

/-- What is found stands in the table. -/
theorem firstMatch_mem {ts : List Template} {op : Byte} {row : Row}
    (h : firstMatch ts op = some row) : ∃ t ∈ ts, t.row = row := by
  induction ts with
  | nil => cases h
  | cons t ts ih =>
    rw [firstMatch] at h
    split at h
    · exact ⟨t, List.mem_cons_self, Option.some.inj h⟩
    · obtain ⟨t', ht', hrow⟩ := ih h
      exact ⟨t', List.mem_cons_of_mem t ht', hrow⟩

theorem templatesCb_format : ∀ t ∈ templatesCb, t.row.format = .cbOp := by decide

theorem format_of_firstMatch_templatesCb {op : Byte} {row : Row}
    (h : firstMatch templatesCb op = some row) : row.format = .cbOp := by
  obtain ⟨t, ht, rfl⟩ := firstMatch_mem h
  exact templatesCb_format t ht

/-- The opcode byte of a well-formed instruction selects its row: no template before it matches, but
for `HALT` before `LD [HL],[HL]` (R128). -/
theorem firstMatch_opcode (i : Instr) (hwf : i.wellFormed = true) :
    firstMatch i.row.format.table i.opcode = some i.row := by
  cases i <;> simp only [Instr.row, Row.format, Format.table, Instr.opcode, encode,
    Format.prefixBytes, List.length_cons, List.length_nil, List.getD_cons_zero, List.getD_cons_succ]
  case prefixCb => cases hwf
  case ldR8R8 dst src =>
    cases dst
    case hlInd =>
      cases src
      case hlInd => cases hwf
      all_goals rfl
    all_goals cases src <;> rfl
  case bitU3R8 u r | resU3R8 u r | setU3R8 u r => revert u; cases r <;> decide
  case rst tgt => revert tgt; decide
  case incR8 r | decR8 r | ldR8N8 r _ | addAR8 r | adcAR8 r | subAR8 r | sbcAR8 r | andAR8 r
    | xorAR8 r | orAR8 r | cpAR8 r | rlcR8 r | rrcR8 r | rlR8 r | rrR8 r | slaR8 r | sraR8 r
    | swapR8 r | srlR8 r => cases r <;> rfl
  case ldR16N16 r _ | addHlR16 r | incR16 r | decR16 r => cases r <;> rfl
  case ldR16MemA r | ldAR16Mem r => cases r <;> rfl
  case pop r | push r => cases r <;> rfl
  case jrCc cc _ | retCc cc | jpCcN16 cc _ | callCcN16 cc _ => cases cc <;> rfl
  all_goals rfl

/-- `opcode_assemble` on the 256 bytes of the unprefixed table. -/
theorem opcode_assemble_of_templates : ∀ op, ∀ row ∈ firstMatch templates op,
    (assemble row op 0 0).opcode = op := by decide

/-- `opcode_assemble` on the 256 bytes of the table behind 0xCB. -/
theorem opcode_assemble_of_templatesCb : ∀ op, ∀ row ∈ firstMatch templatesCb op,
    (assemble row op 0 0).opcode = op := by decide

section

variable {row : Row} {op : Byte} (hsel : firstMatch row.format.table op = some row) (lo hi : Byte)

include hsel

/-- A byte that selects a row is the opcode byte of what the row makes of it: the template's fixed bits
and the operand fields are all of the byte. -/
theorem opcode_assemble : (assemble row op lo hi).opcode = op := by
  have himm : (assemble row op lo hi).opcode = (assemble row op 0 0).opcode := by cases row <;> rfl
  rw [himm]
  cases hf : row.format <;> rw [hf] at hsel
  case cbOp => exact opcode_assemble_of_templatesCb op row hsel
  all_goals exact opcode_assemble_of_templates op row hsel

/-- The encoder puts back together what `assemble` took apart. -/
theorem encode_assemble : encode (assemble row op lo hi) =
    row.format.prefixBytes ++ op :: row.format.immediates lo hi := by
  conv_rhs => rw [← opcode_assemble hsel lo hi]
  cases row <;> simp [assemble, encode, Instr.opcode, Row.format, Instr.row]

end

/-- What a row makes of its bytes is well-formed, 0xCB alone apart (R295): both operands of `LD r8,r8`
could be `[HL]` for 0x76 only, which is `HALT`'s (R128). -/
theorem wellFormed_assemble {row : Row} {op : Byte}
    (hsel : firstMatch row.format.table op = some row) (hrow : row ≠ .prefixCb) (lo hi : Byte) :
    (assemble row op lo hi).wellFormed = true := by
  cases row
  case prefixCb => exact absurd rfl hrow
  case ldR8R8 =>
    have hop := opcode_assemble hsel lo hi
    simp only [assemble] at hop ⊢
    by_contra hill
    obtain ⟨hdst, hsrc⟩ : R8.ofBits (dddField op) = .hlInd ∧ R8.ofBits (sssField op) = .hlInd := by
      simpa [Instr.wellFormed] using hill
    rw [hdst, hsrc] at hop
    obtain rfl : op = 0x76 := hop.symm
    exact absurd hsel (by decide)
  all_goals rfl

theorem format_eq_prefixByte_iff (row : Row) : row.format = .prefixByte ↔ row = .prefixCb := by
  cases row <;> decide

/-- The row `prefixCb` is selected by 0xCB alone (R133). -/
theorem eq_0xCB_of_firstMatch {op : Byte} (h : firstMatch templates op = some .prefixCb) : op = 0xCB :=
  (opcode_assemble (row := .prefixCb) h 0 0).symm

/-! ## The decoder, said once -/

/-- `bytes` start with the instruction `i`, and `rest` is behind it (R111, steps 1 to 3). -/
inductive Reads : List Byte → Instr → List Byte → Prop where
  | instr {row : Row} {op : Byte} (hsel : firstMatch row.format.table op = some row)
      (hrow : row ≠ .prefixCb) (lo hi : Byte) (rest : List Byte) :
      Reads (row.format.prefixBytes ++ op :: row.format.immediates lo hi ++ rest)
        (assemble row op lo hi) rest
  | prefixAlone : Reads [0xCB] .prefixCb []

theorem decode_cons {op : Byte} {row : Row} (h : firstMatch templates op = some row)
    (tail : List Byte) : decode (op :: tail) = decodeTail row op tail := by
  simp only [decode, h]

theorem decode_of_reads {bytes rest : List Byte} {i : Instr} (h : Reads bytes i rest) :
    decode bytes = .ok (i, rest) := by
  cases h with
  | prefixAlone => rfl
  | @instr row op hsel hrow lo hi =>
    have himm (lo' hi' : Byte) (he : row.format.immediates lo' hi' = row.format.immediates lo hi) :
        assemble row op lo' hi' = assemble row op lo hi := assemble_congr op he
    cases hf : row.format <;> rw [hf] at hsel himm
    case prefixByte => exact absurd ((format_eq_prefixByte_iff row).1 hf) hrow
    case cbOp =>
      show decodeTail .prefixCb 0xCB (op :: rest) = _
      have hcb : firstMatch templatesCb op = some row := hsel
      simp only [decodeTail, Row.format, hcb, himm 0 0 rfl]
    case op => simpa [decode_cons hsel, decodeTail, hf] using himm 0 0 rfl
    case opN8 | opE8 => simpa [decode_cons hsel, decodeTail, hf] using himm lo 0 rfl
    case opN16 => simp [decode_cons hsel, decodeTail, hf]

/-- `Reads.instr` where the format of the row is known. -/
theorem Reads.of_format {row : Row} {op : Byte} {f : Format} (hf : row.format = f)
    (hsel : firstMatch f.table op = some row) (hne : f ≠ .prefixByte) (lo hi : Byte)
    (rest : List Byte) :
    Reads (f.prefixBytes ++ op :: f.immediates lo hi ++ rest) (assemble row op lo hi) rest := by
  subst hf
  exact .instr hsel (fun hrow => hne ((format_eq_prefixByte_iff row).2 hrow)) lo hi rest

/-- Past the opcode, the decoder reads what the row's format says, or the bytes run out. -/
theorem reads_of_decodeTail {row : Row} {op : Byte} {tail rest : List Byte} {i : Instr}
    (hsel : firstMatch templates op = some row) (h : decodeTail row op tail = .ok (i, rest)) :
    Reads (op :: tail) i rest := by
  unfold decodeTail at h
  split at h
  case h_1 tail hf =>
    cases h
    exact .of_format hf hsel (by decide) 0 0 rest
  case h_2 lo tail hf =>
    cases h
    exact .of_format hf hsel (by decide) lo 0 rest
  case h_3 lo tail hf =>
    cases h
    exact .of_format hf hsel (by decide) lo 0 rest
  case h_4 lo hi tail hf =>
    cases h
    exact .of_format hf hsel (by decide) lo hi rest
  case h_5 hf =>
    cases h
    obtain rfl := (format_eq_prefixByte_iff row).1 hf
    obtain rfl := eq_0xCB_of_firstMatch hsel
    exact .prefixAlone
  case h_6 op2 tail hf =>
    obtain rfl := (format_eq_prefixByte_iff row).1 hf
    obtain rfl := eq_0xCB_of_firstMatch hsel
    split at h
    case h_1 row2 hsel2 =>
      cases h
      exact .of_format (format_of_firstMatch_templatesCb hsel2) hsel2 (by decide) 0 0 rest
    case h_2 => cases h
  all_goals cases h

/-- What the decoder answers, and when. -/
theorem decode_eq_ok_iff {bytes rest : List Byte} {i : Instr} :
    decode bytes = .ok (i, rest) ↔ Reads bytes i rest := by
  refine ⟨fun h => ?_, decode_of_reads⟩
  unfold decode at h
  split at h
  · cases h
  · split at h
    · cases h
    · exact reads_of_decodeTail ‹_› h

/-! ## The round trips -/

/-- A well-formed instruction is read from its own bytes. -/
theorem reads_encode (i : Instr) (rest : List Byte) (hwf : i.wellFormed = true) :
    Reads (encode i ++ rest) i rest := by
  have hsel := firstMatch_opcode i hwf
  have henc := encode_assemble hsel i.immLo i.immHi
  have hread := Reads.instr hsel (row_ne_prefixCb hwf) i.immLo i.immHi rest
  rwa [← henc, assemble_parts] at hread

/-- Settles O55: a well-formed instruction is read from its own bytes. -/
theorem decodeOfEncode : Obligations.DecodeOfEncode := by
  unfold Obligations.DecodeOfEncode
  intro i rest hwf
  exact decode_eq_ok_iff.2 (reads_encode i rest hwf)

/-- Settles O56: of each of the two ways to read an instruction, by `encode_assemble`. -/
theorem encodeOfDecode : Obligations.EncodeOfDecode := by
  unfold Obligations.EncodeOfDecode
  intro bytes rest i h
  cases decode_eq_ok_iff.1 h with
  | prefixAlone => exact ⟨rfl, rfl, .inr rfl⟩
  | instr hsel hrow lo hi =>
    refine ⟨?_, encode_length _, .inl (wellFormed_assemble hsel hrow lo hi)⟩
    rw [encode_assemble hsel]

/-- The first byte of a well-formed instruction selects a row of the unprefixed table that tells how
many bytes follow it (R110, R130). -/
theorem encode_head {i : Instr} (hwf : i.wellFormed = true) : ∃ op tail row,
    encode i = op :: tail ∧ firstMatch templates op = some row ∧
      tail.length = row.format.tailLength := by
  have hsel := firstMatch_opcode i hwf
  have henc := encode_assemble hsel i.immLo i.immHi
  rw [assemble_parts] at henc
  cases hf : i.row.format <;> rw [hf] at hsel henc
  case prefixByte => exact absurd ((format_eq_prefixByte_iff _).1 hf) (row_ne_prefixCb hwf)
  case cbOp => exact ⟨_, _, .prefixCb, henc, rfl, rfl⟩
  all_goals exact ⟨_, _, i.row, henc, hsel, by rw [hf]; rfl⟩

/-! ## The template tables -/

/-- R127: the eleven illegal bytes. -/
theorem firstMatch_templates_eq_none_iff : ∀ op : Byte, firstMatch templates op = none ↔
    op ∈ [0xD3, 0xDB, 0xDD, 0xE3, 0xE4, 0xEB, 0xEC, 0xED, 0xF4, 0xFC, 0xFD] := by decide

/-- R128: the order of the table matters for 0x76 alone. -/
theorem templates_matching_le_one : ∀ op : Byte, op ≠ 0x76 →
    (templates.filter (·.matchesOp op)).length ≤ 1 := by decide

/-- R126: the table behind 0xCB has no gap and no overlap. -/
theorem templatesCb_matching_eq_one : ∀ op : Byte,
    (templatesCb.filter (·.matchesOp op)).length = 1 := by decide

/-- Settles O57: each clause is a fact of the 256 bytes. -/
theorem templatesCoverAllBytes : Obligations.TemplatesCoverAllBytes := by
  unfold Obligations.TemplatesCoverAllBytes
  intro op
  exact ⟨firstMatch_templates_eq_none_iff op, templates_matching_le_one op, rfl, rfl,
    templatesCb_matching_eq_one op⟩

/-- Settles O58: the decoder runs on each of the eighteen words. -/
theorem familyWordsDecode : Obligations.FamilyWordsDecode := by
  unfold Obligations.FamilyWordsDecode
  and_intros <;> rfl

end Sys2Proof
end

section
/-! PROOFS. A step runs the instruction that the bytes at PC decode to (R111, R446). -/

namespace Sys2Proof.Machine

open Sys2Proof.Claims

/-! ## The admitted set -/

/-- Settles O52: row by row, the `source_named` column of the opcode table. -/
theorem admittedSet : Obligations.AdmittedSet := by
  unfold Obligations.AdmittedSet
  intro cfg i
  refine ⟨fun h => ?_, fun h => ?_⟩ <;> simp only [admitted, h]
  cases i.row <;> decide

/-! ## The bytes at PC -/

/-- The `n` bytes from PC on, in memory order. -/
def codeAt (n : Nat) (s : State) : List Byte :=
  match n with
  | 0 => []
  | n + 1 => s.peek s.pc :: codeAt n { s with pc := s.pc + 1 }

@[simp] theorem codeAt_length (n : Nat) (s : State) : (codeAt n s).length = n := by
  induction n generalizing s with
  | zero => rfl
  | succ n ih => rw [codeAt, List.length_cons, ih]

theorem codeAt_three (s : State) :
    codeAt 3 s = [s.peek s.pc, s.peek (s.pc + 1), s.peek (s.pc + 2)] := by
  have hpc : s.pc + 1 + 1 = s.pc + 2 := by bv_omega
  simp only [codeAt, hpc]
  rfl

/-- What the bytes at PC start with are bytes at PC. -/
theorem eq_codeAt_of_append {l rest : List Byte} {n : Nat} {s : State}
    (h : l ++ rest = codeAt n s) : l = codeAt l.length s := by
  induction l generalizing n s with
  | nil => rfl
  | cons v l ih =>
    cases n with
    | zero => cases h
    | succ n =>
      obtain ⟨rfl, htail⟩ := List.cons.inj h
      exact congrArg (s.peek s.pc :: ·) (ih htail)

/-- The fetch of `n` readable bytes (R10, R29). -/
theorem fetchBytes_ok {n : Nat} {s : State} (hread : ∀ k < n, readable (pcPlus s k) = true) :
    fetchBytes n s = .ok (codeAt n s) { s with pc := pcPlus s n } := by
  induction n generalizing s with
  | zero => rw [pcPlus_zero]; rfl
  | succ n ih =>
    have hfirst : readable s.pc = true := pcPlus_zero s ▸ hread 0 (Nat.succ_pos n)
    have hrest := ih (s := { s with pc := s.pc + 1 }) fun k hk =>
      pcPlus_setPc_succ s k ▸ hread (k + 1) (Nat.succ_lt_succ hk)
    rw [fetchBytes, fetch8_ok s hfirst, Res.bind_ok, hrest, Res.bind_ok, pcPlus_setPc_succ, codeAt]

/-! ## The instruction at PC -/

section

variable {s : State} {i : Instr} (hwf : i.wellFormed = true)
  (hcode : encode i = codeAt (encode i).length s)

include hwf hcode

/-- The byte at PC selects a row, and the instruction's bytes are it and the row's tail. -/
theorem encode_at_pc : ∃ row, firstMatch templates (s.peek s.pc) = some row ∧
    encode i = s.peek s.pc :: codeAt row.format.tailLength { s with pc := s.pc + 1 } := by
  obtain ⟨op, tail, row, henc, hsel, hlen⟩ := encode_head hwf
  rw [henc] at hcode
  obtain ⟨rfl, htail⟩ := List.cons.inj hcode
  exact ⟨row, hsel, by rw [henc, ← hlen, ← htail]⟩

/-- Its bytes being readable, the instruction at PC is fetched, and PC is past it (R111). -/
theorem fetchInstr_ok (hread : ∀ k < (encode i).length, readable (pcPlus s k) = true) :
    fetchInstr s = .ok i { s with pc := pcPlus s (encode i).length } := by
  obtain ⟨row, hsel, henc⟩ := encode_at_pc hwf hcode
  have hdec := decodeOfEncode i [] hwf
  rw [List.append_nil] at hdec
  have hlen : (encode i).length = row.format.tailLength + 1 := by
    rw [henc, List.length_cons, codeAt_length]
  rw [hlen] at hread ⊢
  have hfirst : readable s.pc = true := pcPlus_zero s ▸ hread 0 (Nat.succ_pos _)
  have htail := fetchBytes_ok (s := { s with pc := s.pc + 1 }) fun k hk =>
    pcPlus_setPc_succ s k ▸ hread (k + 1) (Nat.succ_lt_succ hk)
  rw [henc] at hdec
  simp only [fetchInstr, fetch8_ok s hfirst, Res.bind_ok, hsel, htail, hdec, pcPlus_setPc_succ]

/-- The opcode reported for it is the byte at PC, or after 0xCB the byte behind it (R404). -/
theorem opcodeBytes_at_pc : opcodeBytes i =
    if s.peek s.pc = 0xCB then .prefixed (s.peek (s.pc + 1)) else .single (s.peek s.pc) := by
  obtain ⟨row, hsel, henc⟩ := encode_at_pc hwf hcode
  simp only [opcodeBytes, henc]
  split
  case isTrue hcb =>
    rw [hcb] at hsel
    obtain rfl : Row.prefixCb = row := Option.some.inj hsel
    rfl
  case isFalse => rfl

end

/-! ## The step -/

theorem stepInstr_of_ok {s t : State} {i : Instr} (h : fetchInstr s = .ok i t) : stepInstr s =
    if admitted s.cfg i then finishStep s.imePending (exec i t)
    else .next (refuseAdmission i s.pc t) := by
  simp only [stepInstr, h]

theorem latchStep_cost (p : Bool) (u : State) : (latchStep p u).cost = u.cost := by
  unfold latchStep
  split <;> rfl

/-- Settles O40: by O56 the bytes at PC start with the instruction's own, so `fetchInstr_ok` gives the
state its rule runs from, and what follows is `finishStep` or the refusal. -/
theorem stepRunsDecodedInstruction : Obligations.StepRunsDecodedInstruction := by
  unfold Obligations.StepRunsDecodedInstruction
  intro s i rest hs hdec hread
  obtain ⟨hbytes, -, hwf | hprefix⟩ := encodeOfDecode _ _ _ hdec
  case inr => simp at hprefix
  rw [← codeAt_three] at hbytes
  have hcode := eq_codeAt_of_append hbytes
  rw [step_of_fetches hs, stepInstr_of_ok (fetchInstr_ok hwf hcode hread)]
  refine ⟨fun hadm => ?_, fun hadm u hu => ?_⟩
  · rw [if_neg (by simp [hadm]), refuseAdmission, opcodeBytes_at_pc hwf hcode]
    rfl
  · rw [if_pos hadm, hu]
    refine ⟨fun hfault => ?_, fun hnone => ?_⟩
    · obtain ⟨f, hf⟩ := Option.ne_none_iff_exists'.1 hfault
      exact finishStep_of_fault _ hf
    · rw [finishStep_of_no_fault _ hnone, latchStep_cost]
      rfl

end Sys2Proof.Machine
end

section
/-! PROOFS. The 8-bit arithmetic and logic (40_alu8.md): the ALU functions in closed form, each instruction
as one update of the state, and the decimal arithmetic that `DAA` completes. -/

namespace Sys2Proof.Machine

open Sys2Proof.Claims

/-! ## The ALU functions in closed form -/

theorem ofNat_beq_zero (n : Nat) : (BitVec.ofNat 8 n == 0) = decide (n % 256 = 0) := by
  rw [beq_eq_decide, decide_eq_decide, BitVec.toNat_eq, BitVec.toNat_ofNat]
  rfl

/-- R151. -/
theorem add8_eq (a b : Byte) (cin : Bool) : add8 a b cin =
    { res := BitVec.ofNat 8 (a.toNat + b.toNat + cin.toNat)
      z := decide ((a.toNat + b.toNat + cin.toNat) % 256 = 0)
      n := false
      h := decide (15 < a.toNat % 16 + b.toNat % 16 + cin.toNat)
      c := decide (255 < a.toNat + b.toNat + cin.toNat) } := by
  rw [add8, ofNat_beq_zero]

/-- The exact difference of R152, cut to 8 bits, is the difference of the bytes. -/
theorem ofInt_sub_sub (a b : Byte) (n : Nat) :
    BitVec.ofInt 8 ((a.toNat : Int) - b.toNat - n) = a - b - BitVec.ofNat 8 n := by
  apply BitVec.eq_of_toNat_eq
  simp only [BitVec.toNat_ofInt, BitVec.toNat_sub, BitVec.toNat_ofNat]
  omega

theorem sub_sub_beq_zero (a b c : Byte) : (a - b - c == 0) = decide (a = b + c) := by
  rw [beq_eq_decide, decide_eq_decide]
  constructor <;> intro h <;> bv_omega

/-- R152. -/
theorem sub8_eq (a b : Byte) (cin : Bool) : sub8 a b cin =
    { res := a - b - BitVec.ofNat 8 cin.toNat
      z := decide (a = b + BitVec.ofNat 8 cin.toNat)
      n := true
      h := decide (a.toNat % 16 < b.toNat % 16 + cin.toNat)
      c := decide (a.toNat < b.toNat + cin.toNat) } := by
  have hborrow : ((a.toNat : Int) - b.toNat - cin.toNat < 0) = (a.toNat < b.toNat + cin.toNat) := by
    rw [eq_iff_iff]; omega
  simp only [sub8, ofInt_sub_sub, sub_sub_beq_zero, hborrow]

/-- R152 without a borrow-in. -/
theorem sub8_false_eq (a b : Byte) : sub8 a b false =
    { res := a - b
      z := decide (a = b)
      n := true
      h := decide (a.toNat % 16 < b.toNat % 16)
      c := decide (a.toNat < b.toNat) } := by
  simp [sub8_eq]

/-- R153. -/
theorem and8_eq (a b : Byte) : and8 a b =
    { res := a &&& b, z := decide (a &&& b = 0), n := false, h := true, c := false } := by
  rw [and8, beq_eq_decide]

/-- R154. -/
theorem xor8_eq (a b : Byte) : xor8 a b =
    { res := a ^^^ b, z := decide (a = b), n := false, h := false, c := false } := by
  have hzero : (a ^^^ b = 0) = (a = b) := propext BitVec.xor_eq_zero_iff
  simp only [xor8, beq_eq_decide, hzero]

/-- R155. -/
theorem or8_eq (a b : Byte) : or8 a b =
    { res := a ||| b, z := decide (a = 0 ∧ b = 0), n := false, h := false, c := false } := by
  have hzero : (a ||| b = 0) = (a = 0 ∧ b = 0) := propext BitVec.or_eq_zero_iff
  simp only [or8, beq_eq_decide, hzero]

/-- R156. -/
theorem inc8_eq (v : Byte) : inc8 v =
    { res := BitVec.ofNat 8 (v.toNat + 1)
      z := decide (v.toNat = 255)
      n := false
      h := decide (v.toNat % 16 = 15) } := by
  have hres : v + 1 = BitVec.ofNat 8 (v.toNat + 1) := by bv_omega
  have hzero : ((v.toNat + 1) % 256 = 0) = (v.toNat = 255) := by rw [eq_iff_iff]; omega
  simp only [inc8, hres, ofNat_beq_zero, hzero]

/-- R156. -/
theorem dec8_eq (v : Byte) : dec8 v =
    { res := BitVec.ofNat 8 (v.toNat + 255)
      z := decide (v.toNat = 1)
      n := true
      h := decide (v.toNat % 16 = 0) } := by
  have hres : v - 1 = BitVec.ofNat 8 (v.toNat + 255) := by bv_omega
  have hzero : ((v.toNat + 255) % 256 = 0) = (v.toNat = 1) := by rw [eq_iff_iff]; omega
  simp only [dec8, hres, ofNat_beq_zero, hzero]

/-- The number that `DAA` cuts to 8 bits (R182); the 512 keeps the subtract mode above 0. -/
def daaSum (a : Nat) (fn fh fc : Bool) : Nat :=
  if fn then a + 512 - 0x60 * fc.toNat - 0x06 * fh.toNat
  else a + (if fc ∨ 0x99 < a then 0x60 else 0) + (if fh ∨ 9 < a % 16 then 0x06 else 0)

/-- The Carry that `DAA` leaves (R182). -/
def daaCarry (a : Nat) (fn fc : Bool) : Bool := if fn then fc else decide (fc ∨ 0x99 < a)

/-- R182. The first adjustment leaves the low digit, so both tests of the add mode are tests of A as the
instruction finds it. -/
theorem daaAdjust_eq (a : Byte) (fn fh fc : Bool) :
    daaAdjust a fn fh fc = (BitVec.ofNat 8 (daaSum a.toNat fn fh fc), daaCarry a.toNat fn fc) := by
  cases fn with
  | true => cases fh <;> cases fc <;> simp [daaAdjust, daaSum, daaCarry] <;> bv_omega
  | false =>
    have hlow : (if fc = true ∨ 0x99 < a.toNat then a + 0x60 else a).toNat % 16 = a.toNat % 16 := by
      split <;> bv_omega
    simp only [daaAdjust, daaSum, daaCarry, Bool.false_eq_true, if_false, gt_iff_lt, Bool.or_eq_true,
      decide_eq_true_eq, hlow, Prod.mk.injEq, Bool.decide_or, Bool.decide_eq_true, and_true]
    split_ifs <;> bv_omega

/-! ## Operands and cost -/

theorem readR8_run {r : R8} {s : State} (h : CanRead r s) (k : Byte → State → Out) :
    (readR8 r s).run k = k (r8Value r s) s := by
  rw [readR8_ok r s h, Res.run_ok]

theorem writeR8_run {r : R8} {s : State} (h : CanWrite r s) (v : Byte) (k : Unit → State → Out) :
    (writeR8 r v s).run k = k () (r8Set r v s) := by
  rw [writeR8_ok r v s h, Res.run_ok]

theorem r8Cost_eq (r : R8) : r8Cost r = if r = .hlInd then .hl else .plain := by cases r <;> rfl

@[simp] theorem r8Set_cfg (r : R8) (v : Byte) (s : State) : (r8Set r v s).cfg = s.cfg := by
  cases r <;> rfl

/-- The end of an instruction that leaves Carry, its cost from the parameters of an earlier state. -/
theorem setZnh_charge {s t : State} (hcfg : t.cfg = s.cfg) (z n h : Bool) (row : Row) (k : CostCase) :
    (t.setZnh z n h).charge row k =
      { t with fz := z, fn := n, fh := h, cost := cyclesOf s.cfg (.row row k) } := by
  rw [← hcfg]; rfl

/-! ## The instructions -/

/-- Settles O1: the operand is read, and `add8_eq` gives the result and the flags. -/
theorem addAndAdcRegisterForm : Obligations.AddAndAdcRegisterForm := by
  unfold Obligations.AddAndAdcRegisterForm
  intro r s h
  refine ⟨(readR8_run h _).trans ?_, (readR8_run h _).trans ?_⟩
  · rw [add8_eq, r8Cost_eq]; rfl
  · rw [add8_eq, r8Cost_eq]; rfl

/-- Settles O2: as for the sums, with `sub8_eq`. -/
theorem subAndSbcRegisterForm : Obligations.SubAndSbcRegisterForm := by
  unfold Obligations.SubAndSbcRegisterForm
  intro r s h
  refine ⟨(readR8_run h _).trans ?_, (readR8_run h _).trans ?_⟩
  · rw [sub8_false_eq, r8Cost_eq]; rfl
  · rw [sub8_eq, r8Cost_eq]; rfl

/-- Settles O3: as for the sums, with the closed forms of the three bitwise functions. -/
theorem logicRegisterForm : Obligations.LogicRegisterForm := by
  unfold Obligations.LogicRegisterForm
  intro r s h
  refine ⟨(readR8_run h _).trans ?_, (readR8_run h _).trans ?_, (readR8_run h _).trans ?_⟩
  · rw [and8_eq, r8Cost_eq]; rfl
  · rw [xor8_eq, r8Cost_eq]; rfl
  · rw [or8_eq, r8Cost_eq]; rfl

/-- Settles O4: the flags are those of `sub8` without a borrow-in. -/
theorem compareKeepsA : Obligations.CompareKeepsA := by
  unfold Obligations.CompareKeepsA
  refine ⟨fun r s h => (readR8_run h _).trans ?_, fun n s => ?_⟩
  · rw [sub8_false_eq, r8Cost_eq]; rfl
  · rw [exec, execCpAN8, sub8_false_eq]; rfl

/-- Settles O5: the closed form of each ALU function, at the immediate byte. -/
theorem aluImmediateForms : Obligations.AluImmediateForms := by
  unfold Obligations.AluImmediateForms
  intro n s
  refine ⟨?_, ?_, ?_, ?_, ?_, ?_, ?_⟩
  · rw [exec, execAddAN8, add8_eq]; rfl
  · rw [exec, execAdcAN8, add8_eq]; rfl
  · rw [exec, execSubAN8, sub8_false_eq]; rfl
  · rw [exec, execSbcAN8, sub8_eq]; rfl
  · rw [exec, execAndAN8, and8_eq]; rfl
  · rw [exec, execXorAN8, xor8_eq]; rfl
  · rw [exec, execOrAN8, or8_eq]; rfl

/-- Settles O6: what may be written may be read, so neither access raises. -/
theorem incAndDecByte : Obligations.IncAndDecByte := by
  unfold Obligations.IncAndDecByte
  intro r s h
  have hread : CanRead r s := fun hr => readable_of_writable (h hr)
  refine ⟨((readR8_run hread _).trans (writeR8_run h _ _)).trans ?_,
    ((readR8_run hread _).trans (writeR8_run h _ _)).trans ?_⟩
  · rw [inc8_eq, r8Cost_eq, setZnh_charge (r8Set_cfg r _ s)]
  · rw [dec8_eq, r8Cost_eq, setZnh_charge (r8Set_cfg r _ s)]

/-- Settles O7: `daaAdjust_eq` writes the adjustments as one sum or difference. -/
theorem daaAdjustsByFlagsAndDigits : Obligations.DaaAdjustsByFlagsAndDigits := by
  unfold Obligations.DaaAdjustsByFlagsAndDigits
  intro s
  rw [exec, execDaa, daaAdjust_eq, ofNat_beq_zero]
  rfl

/-- Settles O9: inverting A is the exclusive or with all ones; the rest is the instructions' own update. -/
theorem complementAndCarryInstructions : Obligations.ComplementAndCarryInstructions := by
  unfold Obligations.ComplementAndCarryInstructions
  intro s
  refine ⟨?_, rfl, rfl⟩
  rw [exec, execCpl, ← BitVec.xor_allOnes]
  rfl

/-! ## Decimal arithmetic -/

/-- What `DAA` makes of the result and the flags of an ALU function: A and Carry. -/
def daaAfter (o : AluOut) : Byte × Bool := daaAdjust o.res o.n o.h o.c

theorem exec_adcAN8_daa (n : Byte) (s : State) : ∃ t u, exec (.adcAN8 n) s = .next t ∧
    exec .daa t = .next u ∧ (u.a, u.fc) = daaAfter (add8 s.a n s.fc) := ⟨_, _, rfl, rfl, rfl⟩

theorem exec_sbcAN8_daa (n : Byte) (s : State) : ∃ t u, exec (.sbcAN8 n) s = .next t ∧
    exec .daa t = .next u ∧ (u.a, u.fc) = daaAfter (sub8 s.a n s.fc) := ⟨_, _, rfl, rfl, rfl⟩

theorem bcd_toNat {x : Nat} (hx : x < 100) : (bcd x).toNat = 16 * (x / 10) + x % 10 := by
  rw [bcd, BitVec.toNat_ofNat]
  omega

/-- `DAA` after a sum `n` of two-digit numbers, `hi` and `lo` being the digits of the decimal sum: a decimal
carry out of the low digit (`k`) has left `n` short by 6, one out of the high digit (`m`) by 0x60, and the
tests of R182 find exactly these carries. -/
theorem daaAdjust_of_carries {hi lo n : Nat} {k m : Prop} [Decidable k] [Decidable m] (hhi : hi ≤ 9)
    (hlo : lo ≤ 9) (hn : n + (if k then 0x06 else 0) = 16 * hi + lo + (if m then 0xA0 else 0)) :
    daaAdjust (BitVec.ofNat 8 n) false (decide (15 < lo + (if k then 10 else 0))) (decide (255 < n)) =
      (BitVec.ofNat 8 (16 * hi + lo), decide m) := by
  have hhigh : (255 < n ∨ 0x99 < n % 256) ↔ m := by
    split_ifs at hn <;> simp [*] <;> omega
  have hlow : (15 < lo + (if k then 10 else 0) ∨ 9 < n % 256 % 16) ↔ k := by
    split_ifs at hn ⊢ <;> simp [*] <;> omega
  simp only [daaAdjust_eq, BitVec.toNat_ofNat, Nat.reducePow, daaSum, daaCarry, decide_eq_true_eq, hhigh,
    hlow, Bool.false_eq_true, if_false, Prod.mk.injEq, and_true]
  apply BitVec.eq_of_toNat_eq
  simp only [BitVec.toNat_ofNat]
  split_ifs at hn ⊢ <;> omega

theorem daaAfter_add8_bcd {x y : Nat} (hx : x < 100) (hy : y < 100) (cin : Bool) :
    daaAfter (add8 (bcd x) (bcd y) cin) =
      (bcd ((x + y + cin.toNat) % 100), decide (100 ≤ x + y + cin.toNat)) := by
  have hcin := Bool.toNat_le cin
  have hlow : (16 * (x / 10) + x % 10) % 16 + (16 * (y / 10) + y % 10) % 16 + cin.toNat =
      (x + y + cin.toNat) % 100 % 10 + (if 10 ≤ x % 10 + y % 10 + cin.toNat then 10 else 0) := by
    split <;> omega
  simp only [daaAfter, add8_eq, bcd_toNat hx, bcd_toNat hy, hlow]
  apply daaAdjust_of_carries (by omega) (by omega)
  split_ifs <;> omega

/-- `DAA` after a difference of two-digit numbers, `d` being the decimal difference: a borrow into the low
digit (`k`) has left `a` 6 too large, one into the high digit (`m`) 0x60. -/
theorem daaAdjust_of_borrows {a d : Byte} {k m : Prop} [Decidable k] [Decidable m]
    (ha : a.toNat = d.toNat + (if m then 0x60 else 0) + (if k then 0x06 else 0)) :
    daaAdjust a true (decide k) (decide m) = (d, decide m) := by
  simp only [daaAdjust, if_true, decide_eq_true_eq, Prod.mk.injEq, and_true]
  split_ifs at ha ⊢ <;> bv_omega

theorem bcd_sub_toNat {x y c : Nat} (hx : x < 100) (hy : y < 100) (hc : c ≤ 1) :
    (bcd x - bcd y - BitVec.ofNat 8 c).toNat = (bcd ((x + 100 - y - c) % 100)).toNat +
      (if x < y + c then 0x60 else 0) + (if x % 10 < y % 10 + c then 0x06 else 0) := by
  have hdigits : 16 * (x / 10) + x % 10 + (if x < y + c then 256 else 0) =
      16 * ((x + 100 - y - c) % 100 / 10) + (x + 100 - y - c) % 100 % 10 +
        (if x < y + c then 0x60 else 0) + (if x % 10 < y % 10 + c then 0x06 else 0) +
        (16 * (y / 10) + y % 10) + c := by split_ifs <;> omega
  have hlt : (x + 100 - y - c) % 100 < 100 := Nat.mod_lt _ (by decide)
  simp only [BitVec.toNat_sub, BitVec.toNat_ofNat, bcd_toNat hx, bcd_toNat hy, bcd_toNat hlt]
  generalize (x + 100 - y - c) % 100 = d at hdigits hlt ⊢
  split_ifs at hdigits ⊢ <;> omega

theorem daaAfter_sub8_bcd {x y : Nat} (hx : x < 100) (hy : y < 100) (cin : Bool) :
    daaAfter (sub8 (bcd x) (bcd y) cin) =
      (bcd ((x + 100 - y - cin.toNat) % 100), decide (x < y + cin.toNat)) := by
  have hcin := Bool.toNat_le cin
  have hhigh : 16 * (x / 10) + x % 10 < 16 * (y / 10) + y % 10 + cin.toNat ↔ x < y + cin.toNat := by
    omega
  have hlow : (16 * (x / 10) + x % 10) % 16 < (16 * (y / 10) + y % 10) % 16 + cin.toNat ↔
      x % 10 < y % 10 + cin.toNat := by omega
  simp only [daaAfter, sub8_eq, bcd_toNat hx, bcd_toNat hy, hhigh, hlow]
  exact daaAdjust_of_borrows (bcd_sub_toNat hx hy hcin)

/-- Settles O8: `DAA` acts on the output of `add8` or `sub8`, whose missing decimal carries it makes up. -/
theorem daaGivesDecimalResult : Obligations.DaaGivesDecimalResult := by
  unfold Obligations.DaaGivesDecimalResult
  intro x y s hx hy ha
  obtain ⟨t, u, hadc, hdaa, hu⟩ := exec_adcAN8_daa (bcd y) s
  obtain ⟨t', u', hsbc, hdaa', hu'⟩ := exec_sbcAN8_daa (bcd y) s
  rw [ha, daaAfter_add8_bcd hx hy, Prod.mk.injEq] at hu
  rw [ha, daaAfter_sub8_bcd hx hy, Prod.mk.injEq] at hu'
  exact ⟨⟨t, u, hadc, hdaa, hu⟩, ⟨t', u', hsbc, hdaa', hu'⟩⟩

end Sys2Proof.Machine
end

section
/-! PROOFS. The 16-bit arithmetic (41_alu16.md): a pair reads back what was written to it, and the signed
addition to SP in numbers. -/

namespace Sys2Proof.Machine

open Sys2Proof.Claims

/-! ## Pairs and their bytes -/

theorem hiByte_ofNat (n : Nat) : hiByte (BitVec.ofNat 16 n) = BitVec.ofNat 8 (n / 256) := by
  apply BitVec.eq_of_toNat_eq
  simp only [hiByte_toNat, BitVec.toNat_ofNat]
  omega

theorem loByte_ofNat (n : Nat) : loByte (BitVec.ofNat 16 n) = BitVec.ofNat 8 n := by
  apply BitVec.eq_of_toNat_eq
  simp only [loByte_toNat, BitVec.toNat_ofNat]
  omega

/-- R28. -/
@[simp] theorem r16Get_r16Set (r : R16) (v : Word) (s : State) : r16Get r (r16Set r v s) = v := by
  cases r
  case bc => exact setBc_bc s v
  case de => exact setDe_de s v
  case hl => exact setHl_hl s v
  case sp => rfl

@[simp] theorem r16Set_cfg (r : R16) (v : Word) (s : State) : (r16Set r v s).cfg = s.cfg := by
  cases r <;> rfl

@[simp] theorem r16Get_charge (r : R16) (s : State) (row : Row) (k : CostCase) :
    r16Get r (s.charge row k) = r16Get r s := by
  cases r <;> rfl

/-- The cost of a row without cases, from the parameters of an earlier state. -/
theorem charge_plain {s t : State} (hcfg : t.cfg = s.cfg) (row : Row) :
    t.charge row .plain = { t with cost := cost s row } := by
  rw [cost, ← hcfg]; rfl

/-- An instruction that only writes a pair: the pair reads the value written, and the rest of the state is
kept but the cost. -/
theorem next_r16Set_charge (r : R16) {v : Word} (s : State) (row : Row) {n : Nat} (hv : v.toNat = n) :
    ∃ t, (.next ((r16Set r v s).charge row .plain) : Out) = .next t ∧ (r16Get r t).toNat = n ∧
      t = { r16Set r (r16Get r t) s with cost := cost s row } := by
  refine ⟨_, rfl, ?_, ?_⟩
  · rw [r16Get_charge, r16Get_r16Set, hv]
  · rw [r16Get_charge, r16Get_r16Set, charge_plain (r16Set_cfg r v s)]

/-! ## The signed addition to SP -/

theorem sext16_eq_ofInt (e : Byte) : sext16 e = BitVec.ofInt 16 e.toInt := rfl

theorem sext16_toNat (e : Byte) :
    (sext16 e).toNat = if e.toNat < 128 then e.toNat else e.toNat + 65280 := by
  have := e.isLt
  rw [sext16_eq_ofInt, BitVec.toNat_ofInt, BitVec.toInt_eq_toNat_cond]
  split <;> split <;> omega

/-- With `ADDSP_WIDE_OVERFLOW` set, the 16-bit addition of the sign-extended byte overflows (R204). -/
abbrev SpOverflows (wideOverflow : Bool) (sp : Word) (e : Byte) : Prop :=
  wideOverflow ∧ 65535 < sp.toNat + (if e.toNat < 128 then e.toNat else e.toNat + 65280)

/-- R204. -/
theorem addSp_eq (wideOverflow : Bool) (sp : Word) (e : Byte) : addSp wideOverflow sp e =
    { res := BitVec.ofInt 16 ((sp.toNat : Int) + e.toInt)
      h := decide (15 < sp.toNat % 16 + e.toNat % 16 ∨ SpOverflows wideOverflow sp e)
      c := decide (255 < sp.toNat % 256 + e.toNat ∨ SpOverflows wideOverflow sp e) } := by
  have hres : BitVec.ofInt 16 ((sp.toNat : Int) + e.toInt) = sp + sext16 e := by
    rw [BitVec.ofInt_add, BitVec.ofInt_natCast, BitVec.ofNat_toNat, BitVec.setWidth_eq, sext16_eq_ofInt]
  simp only [addSp, hres, sext16_toNat, SpOverflows, gt_iff_lt, Bool.decide_or, Bool.decide_and,
    Bool.decide_eq_true]

/-! ## The instructions -/

/-- Settles O10: H and L are the bytes of the sum cut to 16 bits, so they are those of the sum itself. -/
theorem addToHlLeavesZero : Obligations.AddToHlLeavesZero := by
  unfold Obligations.AddToHlLeavesZero
  intro r s
  rw [← hiByte_ofNat, ← loByte_ofNat]
  rfl

/-- Settles O11: one more or one less modulo 65536 is the value that the instruction writes to the pair. -/
theorem incAndDecPair : Obligations.IncAndDecPair := by
  unfold Obligations.IncAndDecPair
  intro r s
  have hinc : (r16Get r s + 1).toNat = ((r16Get r s).toNat + 1) % 65536 := by bv_omega
  have hdec : (r16Get r s - 1).toNat = ((r16Get r s).toNat + 65535) % 65536 := by bv_omega
  exact ⟨next_r16Set_charge r s .incR16 hinc, next_r16Set_charge r s .decR16 hdec⟩

/-- Settles O12: both instructions take the result and the flags of `addSp_eq`. -/
theorem stackPointerAdd : Obligations.StackPointerAdd := by
  unfold Obligations.StackPointerAdd
  intro e s
  refine ⟨?_, ?_⟩
  · rw [exec, execAddSpE8, addSp_eq]; rfl
  · rw [exec, execLdHlSpE8, addSp_eq]; rfl

end Sys2Proof.Machine
end

section
/-! PROOFS. The rotates, shifts and bit instructions (42_rotate_shift_bit.md): the byte transformations of
R220 in numbers, all but `SWAP` as a rotate through Carry with some carry-in, and the instructions that read
their operand and write it back. -/

namespace Sys2Proof.Machine

open Sys2Proof.Claims

/-! ## Bits of a byte in numbers -/

theorem bitByte_toNat (c : Bool) : (bitByte c).toNat = c.toNat := by cases c <;> rfl

theorem getLsbD_eq_decide (v : Byte) (i : Nat) : v.getLsbD i = decide (v.toNat / 2 ^ i % 2 = 1) :=
  Nat.testBit_eq_decide_div_mod_eq

/-- Bit 0, that a rotate or shift to the right moves out. -/
theorem getLsbD_zero_eq (v : Byte) : v.getLsbD 0 = decide (v.toNat % 2 = 1) := by
  rw [getLsbD_eq_decide, Nat.pow_zero, Nat.div_one]

/-- Bit 7, that a rotate or shift to the left moves out. -/
theorem getLsbD_seven_eq (v : Byte) : v.getLsbD 7 = decide (128 ≤ v.toNat) := by
  have := v.isLt
  rw [getLsbD_eq_decide, decide_eq_decide]
  omega

theorem getLsbD_seven_toNat (v : Byte) : (v.getLsbD 7).toNat = v.toNat / 128 := by
  have := v.isLt
  rw [getLsbD_toNat]
  omega

/-- A number below `2 ^ i` put into the bits that a shift to the left by `i` leaves free. -/
theorem shiftLeft_or_eq (v y : Byte) (i : Nat) (hy : y.toNat < 2 ^ i) :
    v <<< i ||| y = BitVec.ofNat 8 (2 ^ i * v.toNat + y.toNat) := by
  apply BitVec.eq_of_toNat_eq
  calc (v <<< i ||| y).toNat
      = v.toNat <<< i % 2 ^ 8 ||| y.toNat % 2 ^ 8 := by
        rw [BitVec.toNat_or, BitVec.toNat_shiftLeft, Nat.mod_eq_of_lt y.isLt]
    _ = (2 ^ i * v.toNat + y.toNat) % 2 ^ 8 := by
        rw [← Nat.or_mod_two_pow, ← Nat.shiftLeft_add_eq_or_of_lt hy, Nat.shiftLeft_eq, Nat.mul_comm]

/-! ## The byte transformations in closed form -/

/-- R220, R232: to the left, the carry-in into bit 0. -/
theorem rl_eq (v : Byte) (cin : Bool) :
    rl v cin = (BitVec.ofNat 8 (2 * v.toNat + cin.toNat), decide (128 ≤ v.toNat)) := by
  have hin : (bitByte cin).toNat < 2 ^ 1 := by rw [bitByte_toNat]; exact Bool.toNat_lt cin
  rw [rl, shiftLeft_or_eq v _ 1 hin, bitByte_toNat, getLsbD_seven_eq, Nat.pow_one]

/-- R220, R233: to the right, the carry-in into bit 7. -/
theorem rr_eq (v : Byte) (cin : Bool) :
    rr v cin = (BitVec.ofNat 8 (v.toNat / 2 + 128 * cin.toNat), decide (v.toNat % 2 = 1)) := by
  have hhalf : (v >>> 1).toNat = v.toNat / 2 := by
    rw [BitVec.toNat_ushiftRight, Nat.shiftRight_eq_div_pow, Nat.pow_one]
  have hlt : (v >>> 1).toNat < 2 ^ 7 := by have := v.isLt; omega
  rw [rr, BitVec.or_comm, shiftLeft_or_eq _ _ 7 hlt, bitByte_toNat, hhalf, getLsbD_zero_eq, Nat.add_comm]
  rfl

/-- R230: the carry-in is the bit rotated out. -/
theorem rlc_eq (v : Byte) :
    rlc v = (BitVec.ofNat 8 (2 * v.toNat + v.toNat / 128), decide (128 ≤ v.toNat)) :=
  (rl_eq v (v.getLsbD 7)).trans (by rw [getLsbD_seven_toNat])

/-- R231: the carry-in is the bit rotated out. -/
theorem rrc_eq (v : Byte) :
    rrc v = (BitVec.ofNat 8 (v.toNat / 2 + 128 * (v.toNat % 2)), decide (v.toNat % 2 = 1)) :=
  (rr_eq v (v.getLsbD 0)).trans (by rw [getLsbD_toNat, Nat.pow_zero, Nat.div_one])

/-- R234: the carry-in is 0. -/
theorem sla_eq (v : Byte) : sla v = (BitVec.ofNat 8 (2 * v.toNat), decide (128 ≤ v.toNat)) := by
  have hrl : sla v = rl v false := congrArg (·, v.getLsbD 7) BitVec.or_zero.symm
  exact hrl.trans (rl_eq v false)

/-- R235: the carry-in is bit 7, the sign. -/
theorem sra_eq (v : Byte) :
    sra v = (BitVec.ofNat 8 (v.toNat / 2 + 128 * (v.toNat / 128)), decide (v.toNat % 2 = 1)) := by
  have hsign : v &&& 0x80 = bitByte (v.getLsbD 7) <<< 7 :=
    (BitVec.and_twoPow v 7).trans (by cases v.getLsbD 7 <;> rfl)
  have hrr : sra v = rr v (v.getLsbD 7) := congrArg (fun x => (v >>> 1 ||| x, v.getLsbD 0)) hsign
  rw [hrr, rr_eq, getLsbD_seven_toNat]

/-- R236: the nibbles change places. -/
theorem swap_eq (v : Byte) : swap v = (BitVec.ofNat 8 (16 * v.toNat + v.toNat / 16), false) := by
  have hhigh : (v >>> 4).toNat = v.toNat / 16 := by
    rw [BitVec.toNat_ushiftRight, Nat.shiftRight_eq_div_pow]
  have hlt : (v >>> 4).toNat < 2 ^ 4 := by have := v.isLt; omega
  rw [swap, shiftLeft_or_eq _ _ 4 hlt, hhigh]; rfl

/-- R237: the carry-in is 0. -/
theorem srl_eq (v : Byte) : srl v = (BitVec.ofNat 8 (v.toNat / 2), decide (v.toNat % 2 = 1)) := by
  have hrr : srl v = rr v false := congrArg (·, v.getLsbD 0) BitVec.or_zero.symm
  exact hrr.trans (rr_eq v false)

/-! ## Instructions that read an operand and write it back -/

/-- What may be written may be read. -/
theorem canRead_of_canWrite {r : R8} {s : State} (h : CanWrite r s) : CanRead r s :=
  fun hr => readable_of_writable (h hr)

/-- The cost of a row with an 8-bit operand, from the parameters of an earlier state. -/
theorem charge_r8Cost {s t : State} (hcfg : t.cfg = s.cfg) (row : Row) (r : R8) :
    t.charge row (r8Cost r) = { t with cost := costR8 s row r } := by
  rw [r8Cost_eq, costR8, ← hcfg]; rfl

/-- R229, for a transformation whose result is given as a number. -/
theorem rotateR8_eq {r : R8} {s : State} (h : CanWrite r s) (row : Row) (f : Byte → Bool → Byte × Bool)
    {res : Nat} {c : Bool} (hf : f (r8Value r s) s.fc = (BitVec.ofNat 8 res, c)) :
    rotateR8 row f r s = .next { r8Set r (BitVec.ofNat 8 res) s with
      fz := decide (res % 256 = 0), fn := false, fh := false, fc := c, cost := costR8 s row r } := by
  refine ((readR8_run (canRead_of_canWrite h) _).trans (writeR8_run h _ _)).trans ?_
  rw [hf, ofNat_beq_zero, charge_r8Cost (s := s)]
  · rfl
  · exact r8Set_cfg r _ s

/-- The mask of `SET` (R240) sets one bit and leaves the others. -/
theorem getLsbD_set (v : Byte) (i k : Nat) (hk : k < 8) :
    (v ||| 1#8 <<< i).getLsbD k = (decide (k = i) || v.getLsbD k) := by
  rw [← BitVec.twoPow_eq, BitVec.getLsbD_or, BitVec.getLsbD_twoPow, Bool.or_comm]
  by_cases hki : k = i
  · simp [hki, hki ▸ hk]
  · simp [hki, Ne.symm hki]

/-! ## The instructions -/

/-- Settles O13: A and Carry are the two parts of the transformation in closed form. -/
theorem accumulatorRotates : Obligations.AccumulatorRotates := by
  unfold Obligations.AccumulatorRotates
  intro s
  refine ⟨?_, ?_, ?_, ?_⟩
  · rw [exec, execRlca, rlc_eq]; rfl
  · rw [exec, execRrca, rrc_eq]; rfl
  · rw [exec, execRla, rl_eq]; rfl
  · rw [exec, execRra, rr_eq]; rfl

/-- Settles O14: each instruction is `rotateR8` at the closed form of its transformation. -/
theorem prefixedRotatesAndShifts : Obligations.PrefixedRotatesAndShifts := by
  unfold Obligations.PrefixedRotatesAndShifts
  intro r s h
  exact ⟨rotateR8_eq h .rlcR8 (fun v _ => rlc v) (rlc_eq _),
    rotateR8_eq h .rrcR8 (fun v _ => rrc v) (rrc_eq _),
    rotateR8_eq h .rlR8 rl (rl_eq _ _),
    rotateR8_eq h .rrR8 rr (rr_eq _ _),
    rotateR8_eq h .slaR8 (fun v _ => sla v) (sla_eq _),
    rotateR8_eq h .sraR8 (fun v _ => sra v) (sra_eq _),
    rotateR8_eq h .swapR8 (fun v _ => swap v) (swap_eq _),
    rotateR8_eq h .srlR8 (fun v _ => srl v) (srl_eq _)⟩

/-- Settles O15: `BIT` reads its operand alone; what `RES` and `SET` write is the operand with a mask of one
bit. -/
theorem bitInstructions : Obligations.BitInstructions := by
  unfold Obligations.BitInstructions
  refine ⟨fun u r s h => (readR8_run h _).trans ?_, fun u r s h => ⟨_, _,
    ((readR8_run (canRead_of_canWrite h) _).trans (writeR8_run h _ _)).trans ?_,
    ((readR8_run (canRead_of_canWrite h) _).trans (writeR8_run h _ _)).trans ?_,
    fun k hk => (getLsbD_clear _ u.val k hk).trans (Bool.and_comm _ _),
    fun k hk => getLsbD_set _ u.val k hk⟩⟩
  · rw [getLsbD_eq_decide, ← decide_not, setZnh_charge rfl, r8Cost_eq]
    simp only [Nat.mod_two_ne_one]
  · rw [charge_r8Cost (r8Set_cfg r _ s)]
  · rw [charge_r8Cost (r8Set_cfg r _ s)]

end Sys2Proof.Machine
end

section
/-! PROOFS. Control flow (43_control_flow.md): a conditional jump as one update of the state, the targets
in numbers, and the calls and returns where the stack allows both accesses. -/

namespace Sys2Proof.Machine

open Sys2Proof.Claims

/-! ## Targets in numbers -/

theorem mkWord_eq_ofNat (hi lo : Byte) : mkWord hi lo = BitVec.ofNat 16 (256 * hi.toNat + lo.toNat) := by
  rw [← mkWord_toNat, BitVec.ofNat_toNat, BitVec.setWidth_eq]

/-- R264: the sum that `addSp` makes for SP. -/
theorem add_sext16_eq (a : Word) (e : Byte) :
    a + sext16 e = BitVec.ofInt 16 ((a.toNat : Int) + e.toInt) :=
  congrArg SpOut.res (addSp_eq false a e)

/-! ## Jumps -/

/-- R262, R265: both ends of a conditional jump as one update, PC and cost chosen by the condition. -/
theorem conditionalJump_eq (s : State) (row : Row) (cond : Bool) (target : Word) :
    (if cond then .next ({ s with pc := target }.charge row .taken)
      else .next (s.charge row .notTaken) : Out) =
      .next { s with pc := if cond then target else s.pc, cost := costCc s row cond } := by
  cases cond <;> rfl

/-! ## Calls and returns -/

/-- The transfer of `CALL` and `RST` where both stack bytes may be written (R266). -/
theorem callTo_ok (target : Word) (s : State) (h1 : writable (s.sp - 1) = true)
    (h2 : writable (s.sp - 2) = true) :
    callTo target s = .ok ()
      { ((s.poke (s.sp - 1) (hiByte s.pc)).poke (s.sp - 2) (loByte s.pc)) with
        sp := s.sp - 2, pc := target } := by
  rw [callTo, push16_ok s.pc s h1 h2, Res.bind_ok]

/-- The transfer of `RET` where both stack bytes may be read (R268). -/
theorem returnTo_ok (s : State) (h1 : readable s.sp = true) (h2 : readable (s.sp + 1) = true) :
    returnTo s = .ok () { s with
      pc := BitVec.ofNat 16 (256 * (s.peek (s.sp + 1)).toNat + (s.peek s.sp).toNat), sp := s.sp + 2 } := by
  rw [returnTo, pop16_ok s h1 h2, Res.bind_ok, mkWord_eq_ofNat]

/-- The transfer of `RETI` is that of `RET` with `ime` set (R270). -/
theorem returnFromInterrupt_ok (s : State) (h1 : readable s.sp = true)
    (h2 : readable (s.sp + 1) = true) :
    returnFromInterrupt s = .ok () { s with
      pc := BitVec.ofNat 16 (256 * (s.peek (s.sp + 1)).toNat + (s.peek s.sp).toNat), sp := s.sp + 2,
      ime := true } := by
  rw [returnFromInterrupt, pop16_ok s h1 h2, Res.bind_ok, mkWord_eq_ofNat]

/-! ## The instructions -/

/-- Settles O16: each condition is the flag it names, so the four conditional forms are instances of one
update. -/
theorem absoluteJumps : Obligations.AbsoluteJumps := by
  unfold Obligations.AbsoluteJumps
  intro n s
  refine ⟨rfl, ?_, ?_, ?_, ?_, ?_⟩
  · exact conditionalJump_eq s .jpCcN16 (!s.fz) n
  · exact conditionalJump_eq s .jpCcN16 s.fz n
  · exact conditionalJump_eq s .jpCcN16 (!s.fc) n
  · exact conditionalJump_eq s .jpCcN16 s.fc n
  · rw [← mkWord_eq_ofNat]; rfl

/-- Settles O17: as for the absolute jumps, the target being the wrapped sum of `add_sext16_eq`. -/
theorem relativeJumps : Obligations.RelativeJumps := by
  unfold Obligations.RelativeJumps
  intro e s
  rw [← add_sext16_eq]
  refine ⟨rfl, ?_, ?_, ?_, ?_⟩
  · exact conditionalJump_eq s .jrCc (!s.fz) (s.pc + sext16 e)
  · exact conditionalJump_eq s .jrCc s.fz (s.pc + sext16 e)
  · exact conditionalJump_eq s .jrCc (!s.fc) (s.pc + sext16 e)
  · exact conditionalJump_eq s .jrCc s.fc (s.pc + sext16 e)

/-- Settles O18: where both writes are allowed, all three forms end as `callTo_ok` says. -/
theorem callsPushReturnAddress : Obligations.CallsPushReturnAddress := by
  unfold Obligations.CallsPushReturnAddress
  intro n tgt cc s
  refine ⟨fun h1 h2 => ⟨?_, ?_, fun hcc => ?_⟩, fun hcc => ?_⟩
  · rw [exec, execCallN16, callTo_ok n s h1 h2]; rfl
  · rw [exec, execRst, callTo_ok _ s h1 h2]; rfl
  · rw [exec, execCallCcN16, if_pos hcc, callTo_ok n s h1 h2]; rfl
  · rw [exec, execCallCcN16, if_neg (ne_true_of_eq_false hcc)]; rfl

/-- Settles O19: where both reads are allowed, `RET` and `RET cc` end as `returnTo_ok` says and `RETI` as
`returnFromInterrupt_ok` says. -/
theorem returnsPopPc : Obligations.ReturnsPopPc := by
  unfold Obligations.ReturnsPopPc
  intro cc s
  refine ⟨fun h1 h2 => ⟨?_, ?_, fun hcc => ?_⟩, fun hcc => ?_⟩
  · rw [exec, execRet, returnTo_ok s h1 h2]; rfl
  · rw [exec, execReti, returnFromInterrupt_ok s h1 h2]; rfl
  · rw [exec, execRetCc, if_pos hcc, returnTo_ok s h1 h2]; rfl
  · rw [exec, execRetCc, if_neg (ne_true_of_eq_false hcc)]; rfl

end Sys2Proof.Machine
end

section
/-! PROOFS. The system instructions and the prefix byte (44_interrupt_system.md): the row that the byte
after 0xCB selects, run as the prefixed instruction that the decoder makes of it. -/

namespace Sys2Proof.Machine

open Sys2Proof.Claims

/-! ## NOP, DI, EI, HALT and STOP -/

/-- Settles O20: each meaning is its one update and the charge of its row. -/
theorem systemInstructions : Obligations.SystemInstructions := by
  unfold Obligations.SystemInstructions
  exact fun s => ⟨rfl, rfl, rfl, rfl⟩

/-- Settles O21: the bytes at PC decode to `STOP`, and O40 gives the step. Admitted or refused (R404), it
latches the same condition. -/
theorem stopRaisesUnimplemented : Obligations.StopRaisesUnimplemented := by
  unfold Obligations.StopRaisesUnimplemented
  refine ⟨fun _ _ => rfl, fun s hs hfirst hsecond hop => ?_⟩
  have hdec : decode [s.peek s.pc, s.peek (s.pc + 1), s.peek (s.pc + 2)] =
      .ok (.stop (s.peek (s.pc + 1)), [s.peek (s.pc + 2)]) := by
    rw [hop]; exact decodeOfEncode (.stop _) _ rfl
  have hread : ∀ k < 2, readable (pcPlus s k) = true
    | 0, _ => pcPlus_zero s ▸ hfirst
    | 1, _ => hsecond
  have hexec : exec (.stop (s.peek (s.pc + 1))) { s with pc := s.pc + 2 } = .next { s with
      pc := s.pc + 2, fault := some (.unimplemented (.single 0x10) s.pc) } := by
    rw [exec, execStop, State.raise, BitVec.add_sub_cancel]
  obtain ⟨hrefused, hadmitted⟩ := stepRunsDecodedInstruction s _ _ hs hdec hread
  cases hadm : admitted s.cfg (.stop (s.peek (s.pc + 1)))
  case false => rw [hrefused hadm, hop]; rfl
  case true => exact (hadmitted hadm _ hexec).1 nofun

/-! ## The prefixed instructions -/

/-- The bus allows every access that R74 gives an instruction. -/
def AccessesAllowed (i : Instr) (s : State) : Prop :=
  (∀ a ∈ loads i s, readable a = true) ∧ ∀ a ∈ stores i s, writable a = true

/-- A rule run from `s` answers a next state, and where `P` holds it latches no condition. -/
def CompletesIf (P : Prop) (s : State) (o : Out) : Prop :=
  ∃ t, o = .next t ∧ (P → t.fault = s.fault)

@[simp] theorem r8Set_fault (r : R8) (v : Byte) (s : State) : (r8Set r v s).fault = s.fault := by
  cases r <;> rfl

section

variable {P : Prop} {r : R8} {s : State}

theorem CompletesIf.readR8_run {k : Byte → State → Out} (hr : P → CanRead r s)
    (hk : CompletesIf P s (k (r8Value r s) s)) : CompletesIf P s ((readR8 r s).run k) := by
  rcases readR8_cases r s with e | ⟨hind, hno, e⟩ <;> rw [e]
  · exact hk
  · exact ⟨_, rfl, fun hP => absurd (hr hP hind) (ne_true_of_eq_false hno)⟩

theorem CompletesIf.writeR8_run {v : Byte} {k : Unit → State → Out} (hw : P → CanWrite r s)
    (hk : CompletesIf P s (k () (r8Set r v s))) : CompletesIf P s ((writeR8 r v s).run k) := by
  rcases writeR8_cases r v s with e | ⟨hind, hno, e⟩ <;> rw [e]
  · exact hk
  · exact ⟨_, rfl, fun hP => absurd (hw hP hind) (ne_true_of_eq_false hno)⟩

end

/-- A prefixed instruction reads its operand, and all but `BIT` write it back (R229, R238 to R240); no
other piece of its rule can raise. -/
theorem exec_prefixed_completesIf {i : Instr} (hi : i.row.format = .cbOp) (s : State) :
    CompletesIf (AccessesAllowed i s) s (exec i s) := by
  cases i
  case rlcR8 r | rrcR8 r | rlR8 r | rrR8 r | slaR8 r | sraR8 r | swapR8 r | srlR8 r | resU3R8 u r
    | setU3R8 u r =>
    refine .readR8_run ?read (.writeR8_run ?write ⟨_, rfl, fun _ => r8Set_fault r _ s⟩)
    case read => rintro ⟨hloads, -⟩ rfl; exact hloads s.hl (List.mem_singleton_self _)
    case write => rintro ⟨-, hstores⟩ rfl; exact hstores s.hl (List.mem_singleton_self _)
  case bitU3R8 u r =>
    refine .readR8_run ?_ ⟨_, rfl, fun _ => rfl⟩
    rintro ⟨hloads, -⟩ rfl
    exact hloads s.hl (List.mem_singleton_self _)
  all_goals cases hi

/-! ## The prefix row -/

/-- The second table runs the instruction that the decoder makes of the byte (R126). -/
theorem runCb_of_firstMatch {op : Byte} {row : Row} (h : firstMatch templatesCb op = some row) (s : State) :
    runCb op s = exec (assemble row op 0 0) s := by
  have hformat := format_of_firstMatch_templatesCb h
  cases row
  case rlcR8 | rrcR8 | rlR8 | rrR8 | slaR8 | sraR8 | swapR8 | srlR8 | bitU3R8 | resU3R8 | setU3R8 =>
    simp only [runCb, h]
    rfl
  all_goals cases hformat

theorem row_assemble (row : Row) (op lo hi : Byte) : (assemble row op lo hi).row = row := by
  cases row <;> rfl

/-- An instruction whose bytes are 0xCB and `op` is what the second table makes of `op` (R111). -/
theorem firstMatch_of_encode_prefixed {i : Instr} {op : Byte} (hwf : i.wellFormed = true)
    (h : encode i = [0xCB, op]) :
    ∃ row, firstMatch templatesCb op = some row ∧ assemble row op 0 0 = i := by
  have hdec : decodeTail .prefixCb 0xCB [op] = .ok (i, []) := by
    have hround := decodeOfEncode i [] hwf
    rwa [h] at hround
  simp only [decodeTail, Row.format] at hdec
  split at hdec
  case h_1 row hsel =>
    cases hdec
    exact ⟨row, hsel, rfl⟩
  case h_2 => cases hdec

/-- Settles O22: past the fetch of the second byte the prefix row runs the instruction that this byte
selects. -/
theorem prefixRunsSecondTable : Obligations.PrefixRunsSecondTable := by
  unfold Obligations.PrefixRunsSecondTable
  intro s i hread hwf henc s1
  obtain ⟨row, hsel, rfl⟩ := firstMatch_of_encode_prefixed hwf henc
  have hformat : (assemble row (s.peek s.pc) 0 0).row.format = .cbOp := by
    rw [row_assemble, format_of_firstMatch_templatesCb hsel]
  obtain ⟨t, ht, hfault⟩ := exec_prefixed_completesIf hformat s1
  have hprefix : exec .prefixCb s = exec (assemble row (s.peek s.pc) 0 0) s1 := by
    rw [exec, execPrefixCb, fetch8_ok s hread, Res.run_ok, runCb_of_firstMatch hsel]
  exact ⟨t, hprefix.trans ht, ht, fun hloads hstores => hfault ⟨hloads, hstores⟩⟩

end Sys2Proof.Machine
end

section
/-! PROOFS. The 8-bit loads (45_load8.md): the accesses that the bus allows, and the high-page address as a
number. -/

namespace Sys2Proof.Machine

open Sys2Proof.Claims

/-! ## Accesses, addresses and cost -/

theorem busRead_run {a : Word} {s : State} (h : readable a = true) (k : Byte → State → Out) :
    (busRead a s).run k = k (s.peek a) s := by
  rw [busRead_ok s h, Res.run_ok]

theorem busWrite_run {a : Word} {s : State} (h : writable a = true) (v : Byte) (k : Unit → State → Out) :
    (busWrite a v s).run k = k () (s.poke a v) := by
  rw [busWrite_ok v s h, Res.run_ok]

/-- The zero-extended operand does not carry out of the page (R316 to R319). -/
theorem highPage_eq_ofNat (v : Byte) : highPage v = BitVec.ofNat 16 (0xFF00 + v.toNat) := by
  rw [BitVec.ofNat_add, BitVec.ofNat_toNat]; rfl

theorem costCase2_eq (dst src : R8) :
    costCase2 dst src = if dst = .hlInd ∨ src = .hlInd then .hl else .plain := by
  cases dst
  case hlInd => rfl
  all_goals exact (r8Cost_eq src).trans (by simp)

/-- The cost of a row in a given case, from the parameters of an earlier state. -/
theorem charge_of_cfg_eq {s t : State} (hcfg : t.cfg = s.cfg) (row : Row) (k : CostCase) :
    t.charge row k = { t with cost := cyclesOf s.cfg (.row row k) } := by
  rw [← hcfg]; rfl

/-! ## The instructions -/

/-- Settles O23: neither access raises, and the write takes the value that the read gave. -/
theorem byteLoads : Obligations.ByteLoads := by
  unfold Obligations.ByteLoads
  intro dst src n s hw
  refine ⟨fun hr _ => ((readR8_run hr _).trans (writeR8_run hw _ _)).trans ?_,
    (writeR8_run hw n _).trans ?_⟩
  · rw [costCase2_eq, charge_of_cfg_eq (r8Set_cfg dst _ s)]
  · rw [charge_r8Cost (r8Set_cfg dst n s)]

/-- Settles O24: each form is one access at an address of the state before, which leaves HL for the update
after it. -/
theorem addressFormLoads : Obligations.AddressFormLoads := by
  unfold Obligations.AddressFormLoads
  exact fun s => ⟨fun h => busWrite_run h _ _, fun h => busWrite_run h _ _,
    fun h => ⟨busWrite_run h _ _, busWrite_run h _ _⟩,
    fun h => busRead_run h _, fun h => busRead_run h _,
    fun h => ⟨busRead_run h _, busRead_run h _⟩⟩

/-- Settles O25: each form is one access, and on the high page the bus allows every one. -/
theorem absoluteAndHighPageLoads : Obligations.AbsoluteAndHighPageLoads := by
  unfold Obligations.AbsoluteAndHighPageLoads
  intro n k s
  simp only [← highPage_eq_ofNat]
  exact ⟨fun h => busWrite_run h _ _, fun h => busRead_run h _,
    busWrite_run (highPage_writable k) _ _, busRead_run (highPage_readable k) _,
    busWrite_run (highPage_writable s.c) _ _, busRead_run (highPage_readable s.c) _⟩

end Sys2Proof.Machine
end

section
/-! PROOFS. The 16-bit loads and the stack (46_load16_stack.md): a pair written as its two bytes, `PUSH`
and `POP` where the bus allows both accesses, and the state each stack form leaves where it does not. -/

namespace Sys2Proof.Machine

open Sys2Proof.Claims

/-! ## The byte view of F -/

/-- R23: the flags by their weights. -/
theorem flagByte_eq_ofNat (s : State) : s.flagByte = BitVec.ofNat 8
    (0x80 * s.fz.toNat + 0x40 * s.fn.toNat + 0x20 * s.fh.toNat + 0x10 * s.fc.toNat) := by
  unfold State.flagByte
  generalize s.fz = z, s.fn = n, s.fh = h, s.fc = c
  revert z n h c; decide

/-- R27: bits 7 to 4 of F are the four flags. -/
theorem flagByte_bits (s : State) : s.flagByte.getLsbD 7 = s.fz ∧ s.flagByte.getLsbD 6 = s.fn ∧
    s.flagByte.getLsbD 5 = s.fh ∧ s.flagByte.getLsbD 4 = s.fc := by
  unfold State.flagByte
  generalize s.fz = z, s.fn = n, s.fh = h, s.fc = c
  revert z n h c; decide

@[simp] theorem setFlagByte_flagByte (s : State) : s.setFlagByte s.flagByte = s := by
  obtain ⟨hz, hn, hh, hc⟩ := flagByte_bits s
  rw [State.setFlagByte, hz, hn, hh, hc]
  rfl

/-! ## A pair written as its two bytes (R26, R27) -/

section

variable (s : State) (hi lo : Byte)

theorem setBc_mkWord : s.setBc (mkWord hi lo) = { s with b := hi, c := lo } := by
  rw [State.setBc, hiByte_mkWord, loByte_mkWord]

theorem setDe_mkWord : s.setDe (mkWord hi lo) = { s with d := hi, e := lo } := by
  rw [State.setDe, hiByte_mkWord, loByte_mkWord]

theorem setHl_mkWord : s.setHl (mkWord hi lo) = { s with h := hi, l := lo } := by
  rw [State.setHl, hiByte_mkWord, loByte_mkWord]

theorem setAf_mkWord : s.setAf (mkWord hi lo) = { s.setFlagByte lo with a := hi } := by
  rw [State.setAf, hiByte_mkWord, loByte_mkWord]

end

/-- R28: writing back what a pair reads as changes nothing. -/
theorem stkSet_stkGet (r : R16Stk) (s : State) : stkSet r (stkGet r s) s = s := by
  cases r
  case bc => exact setBc_mkWord s s.b s.c
  case de => exact setDe_mkWord s s.d s.e
  case hl => exact setHl_mkWord s s.h s.l
  case af => rw [stkSet, stkGet, State.af, setAf_mkWord, setFlagByte_flagByte]

/-- A pair reads as its own registers and flags say, whatever storage, SP and the cost are. -/
theorem stkGet_congr (r : R16Stk) (s : State) (mem : Memory) (sp : Word) (cost : Nat) :
    stkGet r { s with mem := mem, sp := sp, cost := cost } = stkGet r s := by
  cases r <;> rfl

/-! ## PUSH and POP where both accesses are allowed -/

theorem exec_push_ok (r : R16Stk) (s : State) (h1 : writable (s.sp - 1) = true)
    (h2 : writable (s.sp - 2) = true) : exec (.push r) s = .next
      { ((s.poke (s.sp - 1) (hiByte (stkGet r s))).poke (s.sp - 2) (loByte (stkGet r s))) with
        sp := s.sp - 2, cost := cost s .push } := by
  rw [exec, execPush, push16_ok _ s h1 h2]
  rfl

/-- The cost of `POP` is charged by the parameters, which no pair holds, so it may be written first. -/
theorem exec_pop_ok (r : R16Stk) (s : State) (h1 : readable s.sp = true)
    (h2 : readable (s.sp + 1) = true) : exec (.pop r) s = .next
      (stkSet r (mkWord (s.peek (s.sp + 1)) (s.peek s.sp))
        { s with sp := s.sp + 2, cost := cost s .pop }) := by
  rw [exec, execPop, pop16_ok s h1 h2]
  cases r <;> rfl

/-! ## Accesses that raise -/

/-- R97: the first byte of a two-byte write is stored before the second write raises. -/
theorem busWrite2_raised_second {a : Word} (v : Word) (s : State) (h : writable a = true)
    (h' : writable (a + 1) = false) : busWrite2 a v s =
      .raised ((s.poke a (loByte v)).raise (.illegalMemoryAccess (a + 1) .write)) := by
  rw [busWrite2, busWrite_ok _ s h, Res.bind_ok, busWrite_raised _ _ h']

theorem Res.bind_run {α β : Type} (x : Res α) (f : α → State → Res β) (k : β → State → Out) :
    (x.bind f).run k = x.run fun v s => (f v s).run k := by
  cases x <;> rfl

/-- `PUSH`, and `CALL`, `CALL cc` and `RST` with PC, do nothing before `Push16` (R266, R267, R273, R346). -/
theorem exec_eq_push16_run {s : State} {r : R16Stk} {n : Word} {tgt : Fin 8} {cc : Cond} {i : Instr}
    {v : Word} (hi : (i, v) ∈ [(.push r, stkGet r s), (.callN16 n, s.pc), (.rst tgt, s.pc)] ∨
      condHolds cc s = true ∧ i = .callCcN16 cc n ∧ v = s.pc) :
    ∃ k, exec i s = (push16 v s).run k := by
  simp only [List.mem_cons, List.not_mem_nil, or_false, Prod.mk.injEq] at hi
  obtain (⟨rfl, rfl⟩ | ⟨rfl, rfl⟩ | ⟨rfl, rfl⟩) | ⟨hcc, rfl, rfl⟩ := hi
  · exact ⟨_, rfl⟩
  · exact ⟨_, Res.bind_run _ _ _⟩
  · exact ⟨_, Res.bind_run _ _ _⟩
  · exact ⟨_, (if_pos hcc).trans (Res.bind_run _ _ _)⟩

/-- `POP`, `RET`, `RET cc` and `RETI` do nothing before `Pop16` (R268 to R270, R347). -/
theorem exec_eq_pop16_run {s : State} {r : R16Stk} {cc : Cond} {i : Instr}
    (hi : i ∈ [.pop r, .ret, .reti] ∨ condHolds cc s = true ∧ i = .retCc cc) :
    ∃ k, exec i s = (pop16 s).run k := by
  simp only [List.mem_cons, List.not_mem_nil, or_false] at hi
  obtain (rfl | rfl | rfl) | ⟨hcc, rfl⟩ := hi
  · exact ⟨_, rfl⟩
  · exact ⟨_, Res.bind_run _ _ _⟩
  · exact ⟨_, Res.bind_run _ _ _⟩
  · exact ⟨_, (if_pos hcc).trans (Res.bind_run _ _ _)⟩

/-! ## The instructions -/

/-- Settles O28: the two bytes that `POP` reads are those that `PUSH` stored, so it writes back to the pair
what the pair reads as. -/
theorem popAfterPushRestores : Obligations.PopAfterPushRestores := by
  unfold Obligations.PopAfterPushRestores
  intro r s h1 h2
  have hpush := exec_push_ok r s h1 h2
  generalize hp : (s.poke (s.sp - 1) (hiByte (stkGet r s))).poke (s.sp - 2) (loByte (stkGet r s)) = p
    at hpush
  have hnext : s.sp - 2 + 1 = s.sp - 1 := by bv_omega
  have hne : s.sp - 1 ≠ s.sp - 2 := by bv_omega
  have hhi : p.peek (s.sp - 1) = hiByte (stkGet r s) := by
    rw [← hp, peek_poke_other _ _ _ _ hne, peek_poke_same]
  have hlo : p.peek (s.sp - 2) = loByte (stkGet r s) := by rw [← hp, peek_poke_same]
  have hother (a : Word) (ha1 : a ≠ s.sp - 1) (ha2 : a ≠ s.sp - 2) : p.peek a = s.peek a := by
    rw [← hp, peek_poke_other _ _ _ _ ha2, peek_poke_other _ _ _ _ ha1]
  have hrest : p = { s with mem := p.mem } := by rw [← hp]; rfl
  rw [hrest] at hpush
  have hpop := exec_pop_ok r { s with mem := p.mem, sp := s.sp - 2, cost := cost s .push }
    (readable_of_writable h2) (hnext ▸ readable_of_writable h1)
  refine ⟨_, _, hpush, hpop, ?_, hhi, hlo, hother⟩
  calc stkSet r (mkWord (p.peek (s.sp - 2 + 1)) (p.peek (s.sp - 2)))
        { s with mem := p.mem, sp := s.sp - 2 + 2, cost := cost s .pop }
    _ = stkSet r (stkGet r s) { s with mem := p.mem, cost := cost s .pop } := by
      rw [hnext, hhi, hlo, mkWord_hiByte_loByte, BitVec.sub_add_cancel]
    _ = { s with mem := p.mem, cost := cost s .pop } := by
      rw [← stkGet_congr r s p.mem s.sp (cost s .pop), stkSet_stkGet]

/-- Settles O31: each form is a `Push16` or a `Pop16` and a rest that a raise leaves out (R412), so it ends
in the state that the transaction before the raise left. -/
theorem stackFaultsKeepPartialEffects : Obligations.StackFaultsKeepPartialEffects := by
  unfold Obligations.StackFaultsKeepPartialEffects
  intro s r n tgt cc
  constructor
  · intro i v hi
    obtain ⟨k, hk⟩ := exec_eq_push16_run hi
    rw [hk]
    exact ⟨fun h1 => by rw [push16_raised_first v s h1]; rfl,
      fun h1 h2 => by rw [push16_raised_second v s h1 h2]; rfl⟩
  · intro i hi
    obtain ⟨k, hk⟩ := exec_eq_pop16_run hi
    rw [hk]
    exact ⟨fun h1 => by rw [pop16_raised_first s h1]; rfl,
      fun h1 h2 => by rw [pop16_raised_second s h1 h2]; rfl⟩

/-- Settles O26: the register forms are their one update; `LD [n16],SP` is one two-byte write. -/
theorem wordLoads : Obligations.WordLoads := by
  unfold Obligations.WordLoads
  intro n s
  rw [← mkWord_eq_ofNat]
  refine ⟨rfl, rfl, rfl, rfl, rfl, fun h h' => ?_, fun h h' => ?_⟩
  · rw [exec, execLdN16Sp, busWrite2_ok _ s h h']; rfl
  · rw [exec, execLdN16Sp, busWrite2_raised_second _ s h h']; rfl

/-- Settles O27: `exec_push_ok` and `exec_pop_ok` at each pair, F in numbers. -/
theorem pushAndPop : Obligations.PushAndPop := by
  unfold Obligations.PushAndPop
  intro s
  constructor
  · intro h1 h2 pushed
    have hpush (r : R16Stk) (hi lo : Byte) (hr : stkGet r s = mkWord hi lo) :
        exec (.push r) s = .next (pushed hi lo) := by
      rw [exec_push_ok r s h1 h2, hr, hiByte_mkWord, loByte_mkWord]
    rw [← flagByte_eq_ofNat]
    exact ⟨hpush .bc _ _ rfl, hpush .de _ _ rfl, hpush .hl _ _ rfl, hpush .af _ _ rfl⟩
  · intro h1 h2 popped hi lo
    have hpop (r : R16Stk) : exec (.pop r) s = .next (stkSet r (mkWord hi lo) popped) :=
      exec_pop_ok r s h1 h2
    refine ⟨?_, ?_, ?_, ?_⟩
    · rw [hpop, stkSet, setBc_mkWord]
    · rw [hpop, stkSet, setDe_mkWord]
    · rw [hpop, stkSet, setHl_mkWord]
    · rw [hpop, stkSet, setAf_mkWord, State.setFlagByte]
      simp only [getLsbD_eq_decide]
      rfl

end Sys2Proof.Machine
end

section
/-! PROOFS. Operand accesses that the bus refuses (R402, R412): before its first read, or its first write,
an instruction has changed nothing, and a raise leaves out the rest of its rule. -/

namespace Sys2Proof.Machine

open Sys2Proof.Claims

/-! ## An access that raises ends the rule -/

theorem busRead_run_raised {a : Word} {s : State} (h : readable a = false) (k : Byte → State → Out) :
    (busRead a s).run k = .next { s with fault := some (.illegalMemoryAccess a .read) } := by
  rw [busRead_raised s h]; rfl

theorem busWrite_run_raised {a : Word} {s : State} (h : writable a = false) (v : Byte)
    (k : Unit → State → Out) :
    (busWrite a v s).run k = .next { s with fault := some (.illegalMemoryAccess a .write) } := by
  rw [busWrite_raised v s h]; rfl

/-! ## The forms that start with a read -/

/-- The forms that read at HL do nothing before (R159, R180, R241, R310, R313). -/
theorem exec_eq_busRead_hl_run (u : Fin 8) (dst : R8) (s : State) :
    ∀ i ∈ ([.addAR8 .hlInd, .adcAR8 .hlInd, .subAR8 .hlInd, .sbcAR8 .hlInd, .andAR8 .hlInd,
        .xorAR8 .hlInd, .orAR8 .hlInd, .cpAR8 .hlInd, .incR8 .hlInd, .decR8 .hlInd, .rlcR8 .hlInd,
        .rrcR8 .hlInd, .rlR8 .hlInd, .rrR8 .hlInd, .slaR8 .hlInd, .sraR8 .hlInd, .swapR8 .hlInd,
        .srlR8 .hlInd, .bitU3R8 u .hlInd, .resU3R8 u .hlInd, .setU3R8 u .hlInd, .ldR8R8 dst .hlInd,
        .ldAR16Mem .hlInc, .ldAR16Mem .hlDec] : List Instr),
      ∃ k, exec i s = (busRead s.hl s).run k := by
  simp only [List.forall_mem_cons, List.not_mem_nil, false_imp_iff, implies_true, and_true]
  and_intros <;> exact ⟨_, rfl⟩

/-- Settles O29: each form starts with the read that raises. -/
theorem unreadableOperandRaises : Obligations.UnreadableOperandRaises := by
  unfold Obligations.UnreadableOperandRaises
  intro s u dst n a i hi hread
  have hrun : ∃ k, exec i s = (busRead a s).run k := by
    rcases hi with ⟨hi, rfl⟩ | hi
    · exact exec_eq_busRead_hl_run u dst s i hi
    · simp only [List.mem_cons, List.not_mem_nil, or_false, Prod.mk.injEq] at hi
      obtain ⟨rfl, rfl⟩ | ⟨rfl, rfl⟩ | ⟨rfl, rfl⟩ := hi <;> exact ⟨_, rfl⟩
  obtain ⟨k, hk⟩ := hrun
  rw [hk, busRead_run_raised hread]

/-! ## The forms whose first write may be refused -/

/-- Where HL is readable, the forms that read and write back there change nothing before the write
(R180, R241). -/
theorem exec_eq_busWrite_hl_run (u : Fin 8) {s : State} (h : readable s.hl = true) :
    ∀ i ∈ ([.incR8 .hlInd, .decR8 .hlInd, .rlcR8 .hlInd, .rrcR8 .hlInd, .rlR8 .hlInd, .rrR8 .hlInd,
        .slaR8 .hlInd, .sraR8 .hlInd, .swapR8 .hlInd, .srlR8 .hlInd, .resU3R8 u .hlInd,
        .setU3R8 u .hlInd] : List Instr),
      ∃ v k, exec i s = (busWrite s.hl v s).run k := by
  simp only [List.forall_mem_cons, List.not_mem_nil, false_imp_iff, implies_true, and_true]
  and_intros <;> exact ⟨_, _, readR8_run (r := .hlInd) (fun _ => h) _⟩

/-- The forms that only store do so first (R310 to R312, R314, R342). -/
theorem exec_eq_busWrite_run {s : State} {src : R8} {k : Byte} {n a : Word} {i : Instr}
    (hi : src ≠ .hlInd ∧ i = .ldR8R8 .hlInd src ∧ a = s.hl ∨
      (i, a) ∈ [(.ldR8N8 .hlInd k, s.hl), (.ldR16MemA .hlInc, s.hl), (.ldR16MemA .hlDec, s.hl),
        (.ldR16MemA .bc, s.bc), (.ldR16MemA .de, s.de), (.ldN16A n, n), (.ldN16Sp n, n)]) :
    ∃ v k, exec i s = (busWrite a v s).run k := by
  rcases hi with ⟨hsrc, rfl, rfl⟩ | hi
  · exact ⟨_, _, readR8_run (fun h => absurd h hsrc) _⟩
  · simp only [List.mem_cons, List.not_mem_nil, or_false, Prod.mk.injEq] at hi
    obtain ⟨rfl, rfl⟩ | ⟨rfl, rfl⟩ | ⟨rfl, rfl⟩ | ⟨rfl, rfl⟩ | ⟨rfl, rfl⟩ | ⟨rfl, rfl⟩ | ⟨rfl, rfl⟩ := hi
    any_goals exact ⟨_, _, rfl⟩
    exact ⟨_, _, Res.bind_run _ _ _⟩

/-- Settles O30: the first thing each form changes is the byte that the bus refuses to write. -/
theorem unwritableOperandRaises : Obligations.UnwritableOperandRaises := by
  unfold Obligations.UnwritableOperandRaises
  intro s u src k n a i hi hwrite
  have hrun : ∃ v k, exec i s = (busWrite a v s).run k := by
    rcases hi with ⟨hi, rfl, hread⟩ | hi
    · exact exec_eq_busWrite_hl_run u hread i hi
    · exact exec_eq_busWrite_run hi
  obtain ⟨v, k, hk⟩ := hrun
  rw [hk, busWrite_run_raised hwrite]

end Sys2Proof.Machine
end

section
/-! PROOFS. What an instruction's rule may raise (R410) and which control state it may write (R421), said
once for all instructions: one rule per operation, and their composition. -/

namespace Sys2Proof.Machine

open Sys2Proof.Claims

/-! ## The relation -/

/-- The control state: the latched condition, `ime` with its latch, `halted` and PC (R29, R31 to R34). -/
def State.control (s : State) : Option Fault × Bool × Bool × Bool × Word :=
  (s.fault, s.ime, s.imePending, s.halted, s.pc)

/-- `t` has latched nothing since `s`, or an access that the bus refuses at one of the addresses (R410). -/
def RaisesAt (reads writes : List Word) (s t : State) : Prop :=
  t.fault = s.fault ∨
  (∃ a ∈ reads, readable a = false ∧ t.fault = some (.illegalMemoryAccess a .read)) ∨
  (∃ a ∈ writes, writable a = false ∧ t.fault = some (.illegalMemoryAccess a .write))

/-- What the rule of `i`, run from `s`, may have done to the control state when it reaches `t`. -/
structure ControlEffect (i : Instr) (s t : State) : Prop where
  fault : (∀ n, i ≠ .stop n) → RaisesAt (loads i s) (stores i s) s t
  ime : i ≠ .di → i ≠ .reti → t.ime = s.ime
  imePending : i ≠ .di → i ≠ .ei → t.imePending = s.imePending
  halted : i ≠ .halt → t.halted = s.halted
  pc : transfersControl i = false → t.pc = s.pc

theorem ControlEffect.refl (i : Instr) (s : State) : ControlEffect i s s :=
  ⟨fun _ => .inl rfl, fun _ _ => rfl, fun _ _ => rfl, fun _ => rfl, fun _ => rfl⟩

@[simp] theorem r8Set_control (r : R8) (v : Byte) (s : State) : (r8Set r v s).control = s.control := by
  cases r <;> rfl

@[simp] theorem r16Set_control (r : R16) (v : Word) (s : State) :
    (r16Set r v s).control = s.control := by
  cases r <;> rfl

@[simp] theorem stkSet_control (r : R16Stk) (v : Word) (s : State) :
    (stkSet r v s).control = s.control := by
  cases r <;> rfl

@[simp] theorem memAfter_control (r : R16Mem) (s : State) : (memAfter r s).control = s.control := by
  cases r <;> rfl

/-! ## One rule per operation -/

section

variable {i : Instr} {s t : State} (h : ControlEffect i s t)

include h

/-- An update that leaves the control state. -/
theorem ControlEffect.keep {u : State} (hu : u.control = t.control := by rfl) : ControlEffect i s u := by
  simp only [State.control, Prod.mk.injEq] at hu
  obtain ⟨hfault, hime, hpending, hhalted, hpc⟩ := hu
  exact ⟨fun hi => by simpa only [RaisesAt, hfault] using h.fault hi,
    fun h1 h2 => hime.trans (h.ime h1 h2), fun h1 h2 => hpending.trans (h.imePending h1 h2),
    fun h1 => hhalted.trans (h.halted h1), fun h1 => hpc.trans (h.pc h1)⟩

theorem ControlEffect.setPc (hi : transfersControl i = true) (v : Word) :
    ControlEffect i s { t with pc := v } :=
  ⟨h.fault, h.ime, h.imePending, h.halted, fun hn => absurd hi (ne_true_of_eq_false hn)⟩

theorem ControlEffect.raise {x : Fault}
    (hx : (∀ n, i ≠ .stop n) → RaisesAt (loads i s) (stores i s) s (t.raise x)) :
    ControlEffect i s (t.raise x) := ⟨hx, h.ime, h.imePending, h.halted, h.pc⟩

theorem ControlEffect.after_busRead {a : Word} (ha : a ∈ loads i s) :
    (busRead a t).EndsIn (ControlEffect i s) := by
  rcases busRead_cases a t with ⟨_, e⟩ | ⟨hr, e⟩ <;> rw [e]
  · exact h
  · exact h.raise fun _ => .inr (.inl ⟨a, ha, hr, rfl⟩)

theorem ControlEffect.after_busWrite {a : Word} (ha : a ∈ stores i s) (v : Byte) :
    (busWrite a v t).EndsIn (ControlEffect i s) := by
  rcases busWrite_cases a v t with ⟨_, e⟩ | ⟨hw, e⟩ <;> rw [e]
  · exact h.keep
  · exact h.raise fun _ => .inr (.inr ⟨a, ha, hw, rfl⟩)

end

section

variable {i : Instr} {s : State}

/-- An instruction that reads an operand goes on from the state before. -/
theorem readR8_run_controlEffect {r : R8} {k : Byte → State → Out}
    (hk : ∀ v, NextIn (ControlEffect i s) (k v s))
    (hr : r = .hlInd → s.hl ∈ loads i s := by rintro rfl; exact List.mem_singleton_self _) :
    NextIn (ControlEffect i s) ((readR8 r s).run k) := by
  rcases readR8_cases r s with e | ⟨hind, hno, e⟩ <;> rw [e]
  · exact hk _
  · exact .next ((ControlEffect.refl i s).raise fun _ => .inr (.inl ⟨s.hl, hr hind, hno, rfl⟩))

theorem after_writeR8_controlEffect (r : R8) (v : Byte)
    (hr : r = .hlInd → s.hl ∈ stores i s := by rintro rfl; exact List.mem_singleton_self _) :
    (writeR8 r v s).EndsIn (ControlEffect i s) := by
  rcases writeR8_cases r v s with e | ⟨hind, hno, e⟩ <;> rw [e]
  · exact (ControlEffect.refl i s).keep (r8Set_control r v s)
  · exact (ControlEffect.refl i s).raise fun _ => .inr (.inr ⟨s.hl, hr hind, hno, rfl⟩)

theorem after_push16_controlEffect (v : Word) (hstores : stores i s = [s.sp - 1, s.sp - 2]) :
    (push16 v s).EndsIn (ControlEffect i s) := by
  have hrefl := ControlEffect.refl i s
  rcases push16_cases v s with ⟨e, -⟩ | ⟨e, hno⟩ | ⟨e, -, hno⟩ <;> rw [e]
  · exact hrefl.keep
  · exact ControlEffect.raise hrefl.keep fun _ => .inr (.inr ⟨_, by simp [hstores], hno, rfl⟩)
  · exact ControlEffect.raise hrefl.keep fun _ => .inr (.inr ⟨_, by simp [hstores], hno, rfl⟩)

theorem after_pop16_controlEffect (hloads : loads i s = [s.sp, s.sp + 1]) :
    (pop16 s).EndsIn (ControlEffect i s) := by
  have hrefl := ControlEffect.refl i s
  cases h1 : readable s.sp
  case false =>
    rw [pop16_raised_first s h1]
    exact hrefl.raise fun _ => .inr (.inl ⟨_, by simp [hloads], h1, rfl⟩)
  case true =>
    cases h2 : readable (s.sp + 1)
    case false =>
      rw [pop16_raised_second s h1 h2]
      exact ControlEffect.raise hrefl.keep fun _ => .inr (.inl ⟨_, by simp [hloads], h2, rfl⟩)
    case true =>
      rw [pop16_ok s h1 h2]
      exact hrefl.keep

theorem after_callTo_controlEffect (v : Word) (hi : transfersControl i = true)
    (hstores : stores i s = [s.sp - 1, s.sp - 2]) : (callTo v s).EndsIn (ControlEffect i s) :=
  (after_push16_controlEffect s.pc hstores).bind fun _ _ h => h.setPc hi v

theorem after_returnTo_controlEffect (hi : transfersControl i = true)
    (hloads : loads i s = [s.sp, s.sp + 1]) : (returnTo s).EndsIn (ControlEffect i s) :=
  (after_pop16_controlEffect hloads).bind fun v _ h => h.setPc hi v

theorem after_returnFromInterrupt_controlEffect :
    (returnFromInterrupt s).EndsIn (ControlEffect .reti s) :=
  (after_pop16_controlEffect rfl).bind fun _ _ h =>
    ⟨h.fault, fun _ hne => absurd rfl hne, h.imePending, h.halted, nofun⟩

end

/-! ## The instructions -/

/-- What an instruction's rule may do to the control state. -/
theorem exec_controlEffect (i : Instr) (s : State) (hi : i ≠ .prefixCb) :
    NextIn (ControlEffect i s) (exec i s) := by
  have hrefl := ControlEffect.refl i s
  cases i with
  | prefixCb => exact absurd rfl hi
  | nop | rlca | rrca | rla | rra | daa | cpl | scf | ccf | addAN8 n | adcAN8 n | subAN8 n | sbcAN8 n
  | andAN8 n | xorAN8 n | orAN8 n | cpAN8 n | addHlR16 r | addSpE8 e | ldHlSpE8 e | ldSpHl =>
    exact .next hrefl.keep
  | incR16 r | decR16 r | ldR16N16 r n => exact .next (hrefl.keep (r16Set_control r _ s))
  | di => exact .next ⟨hrefl.fault, nofun, nofun, hrefl.halted, hrefl.pc⟩
  | ei => exact .next ⟨hrefl.fault, hrefl.ime, nofun, hrefl.halted, hrefl.pc⟩
  | halt => exact .next ⟨hrefl.fault, hrefl.ime, hrefl.imePending, nofun, hrefl.pc⟩
  | stop n => exact .next (hrefl.raise fun hne => absurd rfl (hne n))
  | addAR8 r | adcAR8 r | subAR8 r | sbcAR8 r | andAR8 r | xorAR8 r | orAR8 r | cpAR8 r | bitU3R8 u r =>
    exact readR8_run_controlEffect fun _ => .next hrefl.keep
  | incR8 r | decR8 r | rlcR8 r | rrcR8 r | rlR8 r | rrR8 r | slaR8 r | sraR8 r | swapR8 r | srlR8 r
  | resU3R8 u r | setU3R8 u r =>
    exact readR8_run_controlEffect fun _ => (after_writeR8_controlEffect r _).run fun _ _ h => .next h.keep
  | ldR8R8 dst src =>
    exact readR8_run_controlEffect fun v => (after_writeR8_controlEffect dst v).run
      fun _ _ h => .next h.keep
  | ldR8N8 r n =>
    exact (after_writeR8_controlEffect r n).run fun _ _ h => .next h.keep
  | ldR16MemA r =>
    exact (hrefl.after_busWrite (List.mem_singleton_self _) s.a).run fun _ t h =>
      .next (h.keep (memAfter_control r t))
  | ldN16A n | ldhN8A n | ldhCA =>
    exact (hrefl.after_busWrite (List.mem_singleton_self _) s.a).run fun _ _ h => .next h.keep
  | ldN16Sp n =>
    have hboth : (busWrite2 n s.sp s).EndsIn (ControlEffect (.ldN16Sp n) s) :=
      (hrefl.after_busWrite List.mem_cons_self _).bind fun _ _ h =>
        h.after_busWrite (List.mem_cons_of_mem n (List.mem_singleton_self _)) _
    exact hboth.run fun _ _ h => .next h.keep
  | ldAR16Mem r =>
    exact (hrefl.after_busRead (List.mem_singleton_self _)).run fun v t h =>
      .next (h.keep (memAfter_control r { t with a := v }))
  | ldAN16 n | ldhAN8 n | ldhAC =>
    exact (hrefl.after_busRead (List.mem_singleton_self _)).run fun _ _ h => .next h.keep
  | push r => exact (after_push16_controlEffect _ rfl).run fun _ _ h => .next h.keep
  | pop r =>
    exact (after_pop16_controlEffect rfl).run fun v t h => .next (h.keep (stkSet_control r v t))
  | jpN16 n | jpHl | jr e => exact .next ((hrefl.setPc rfl _).keep)
  | jpCcN16 cc n | jrCc cc e =>
    simp only [exec, execJpCcN16, execJrCc]
    split
    · exact .next ((hrefl.setPc rfl _).keep)
    · exact .next hrefl.keep
  | callN16 n | rst tgt =>
    exact (after_callTo_controlEffect _ rfl rfl).run fun _ _ h => .next h.keep
  | callCcN16 cc n =>
    simp only [exec, execCallCcN16]
    split
    case isTrue hcc =>
      have hstores : stores (.callCcN16 cc n) s = [s.sp - 1, s.sp - 2] := if_pos hcc
      exact (after_callTo_controlEffect n rfl hstores).run fun _ _ h => .next h.keep
    case isFalse => exact .next hrefl.keep
  | ret => exact (after_returnTo_controlEffect rfl rfl).run fun _ _ h => .next h.keep
  | reti => exact after_returnFromInterrupt_controlEffect.run fun _ _ h => .next h.keep
  | retCc cc =>
    simp only [exec, execRetCc]
    split
    case isTrue hcc =>
      have hloads : loads (.retCc cc) s = [s.sp, s.sp + 1] := if_pos hcc
      exact (after_returnTo_controlEffect rfl hloads).run fun _ _ h => .next h.keep
    case isFalse => exact .next hrefl.keep

/-- Settles O32: the condition half of `exec_controlEffect`. -/
theorem instructionsRaiseOnlyTheirConditions : Obligations.InstructionsRaiseOnlyTheirConditions := by
  unfold Obligations.InstructionsRaiseOnlyTheirConditions
  intro i s t hwf hstop ht
  have hne : i ≠ .prefixCb := by rintro rfl; cases hwf
  exact (exec_controlEffect i s hne t ht).fault hstop

/-- Settles O39: `exec_controlEffect`, and `exec_coreEffect` for the timing unit and the parameters. -/
theorem controlStateFrame : Obligations.ControlStateFrame := by
  unfold Obligations.ControlStateFrame
  intro i s t hne ht
  have hcontrol := exec_controlEffect i s hne t ht
  have hcore := exec_coreEffect i s t ht
  exact ⟨hcontrol.ime, hcontrol.imePending, hcontrol.halted, hcontrol.pc,
    hcore.dots, hcore.ly, hcore.events, hcore.cfg⟩

end Sys2Proof.Machine
end

section
/-! PROOFS. When interrupts are enabled and disabled (R421, R423): what a step that raises nothing is made
of, and the two control bits through its rule, the latch step and the timing unit. -/

namespace Sys2Proof.Machine

open Sys2Proof.Claims

/-! ## What a fetch can do -/

/-- A fetch of `n` bytes that does not raise gives the bytes at PC. -/
theorem fetchBytes_cases (n : Nat) (s : State) :
    fetchBytes n s = .ok (codeAt n s) { s with pc := pcPlus s n } ∨
    ∃ t, fetchBytes n s = .raised t ∧ t.fault ≠ none := by
  induction n generalizing s with
  | zero => exact .inl (fetchBytes_ok nofun)
  | succ n ih =>
    rw [fetchBytes]
    cases hread : readable s.pc
    case false =>
      rw [fetch8_raised s hread]
      exact .inr ⟨_, rfl, nofun⟩
    case true =>
      rw [fetch8_ok s hread, Res.bind_ok]
      rcases ih { s with pc := s.pc + 1 } with e | ⟨t, e, ht⟩ <;> rw [e]
      · exact .inl (by rw [Res.bind_ok, pcPlus_setPc_succ]; rfl)
      · exact .inr ⟨t, rfl, ht⟩

/-- What the bytes of an instruction decode to is well-formed, when none of them is missing. -/
theorem wellFormed_of_decode {op : Byte} {row : Row} {tail rest : List Byte} {i : Instr}
    (hop : firstMatch templates op = some row) (hlen : tail.length = row.format.tailLength)
    (hdec : decode (op :: tail) = .ok (i, rest)) : i.wellFormed = true := by
  obtain ⟨-, -, hwf | hprefix⟩ := encodeOfDecode _ _ _ hdec
  · exact hwf
  · obtain ⟨rfl, rfl⟩ := List.cons.inj hprefix
    obtain rfl : Row.prefixCb = row := Option.some.inj hop
    cases hlen

/-- A fetch that does not raise moves PC alone, and gives a well-formed instruction that the byte at PC
and some bytes after it decode to (R111). -/
theorem fetchInstr_cases (s : State) :
    (∃ i pc tail rest, fetchInstr s = .ok i { s with pc := pc } ∧ i.wellFormed = true ∧
      decode (s.peek s.pc :: tail) = .ok (i, rest)) ∨
    ∃ t, fetchInstr s = .raised t ∧ t.fault ≠ none := by
  cases hread : readable s.pc
  case false => exact .inr ⟨_, fetchInstr_raised_of_unreadable s hread, nofun⟩
  case true =>
    rcases hop : firstMatch templates (s.peek s.pc) with _ | row
    · exact .inr ⟨_, fetchInstr_raised_of_no_template hread hop, nofun⟩
    · rcases fetchBytes_cases row.format.tailLength { s with pc := s.pc + 1 } with e | ⟨t, e, ht⟩
      · simp only [fetchInstr, fetch8_ok s hread, Res.bind_ok, hop, e]
        generalize htail : codeAt row.format.tailLength { s with pc := s.pc + 1 } = tail
        rcases hdec : decode (s.peek s.pc :: tail) with _ | ⟨i, rest⟩
        · exact .inr ⟨_, rfl, nofun⟩
        · exact .inl ⟨i, _, tail, rest, rfl,
            wellFormed_of_decode hop (htail ▸ codeAt_length _ _) hdec, hdec⟩
      · exact .inr ⟨t, fetchInstr_raised_of_tail hread hop e, ht⟩

/-! ## What a step that raises nothing is made of -/

/-- The state before the rule differs in PC alone; the rule raised nothing, and the latch step and the
timing unit followed it (R111, R446). -/
theorem step_completed {s t : State} (hs : Fetches s) (ht : step s = .next t) (hfault : t.fault = none) :
    ∃ i pc tail rest u, i.wellFormed = true ∧ decode (s.peek s.pc :: tail) = .ok (i, rest) ∧
      exec i { s with pc := pc } = .next u ∧ t = ppuStep u.cost (latchStep s.imePending u) := by
  rw [step_of_fetches hs] at ht
  rcases fetchInstr_cases s with ⟨i, pc, tail, rest, hfetch, hwf, hdec⟩ | ⟨u, hfetch, hu⟩
  · rw [stepInstr_of_ok hfetch] at ht
    split at ht
    · rcases hexec : exec i { s with pc := pc } with u | f | r <;> rw [hexec] at ht
      · rcases hu : u.fault with _ | f
        · rw [finishStep_of_no_fault _ hu, latchStep_cost] at ht
          cases ht
          exact ⟨i, pc, tail, rest, u, hwf, hdec, hexec, rfl⟩
        · rw [finishStep_of_fault _ hu] at ht
          cases ht
          simp [hu] at hfault
      · cases ht
      · cases ht
    · cases ht
      cases hfault
  · rw [stepInstr_of_raised hfetch] at ht
    cases ht
    exact absurd hfault hu

/-! ## The opcodes that write the two bits -/

/-- A well-formed instruction of one byte is what that byte at PC decodes to, and nothing else is. -/
theorem eq_iff_of_encode_singleton {i j : Instr} {op b : Byte} {tail rest : List Byte}
    (hdec : decode (b :: tail) = .ok (i, rest)) (hj : encode j = [op]) (hwf : j.wellFormed = true) :
    i = j ↔ b = op := by
  constructor
  · rintro rfl
    obtain ⟨henc, -⟩ := encodeOfDecode _ _ _ hdec
    rw [hj] at henc
    exact (List.cons.inj henc).1.symm
  · rintro rfl
    have hround := decodeOfEncode j tail hwf
    rw [hj] at hround
    have heq : (.ok (i, rest) : Except DecodeError (Instr × List Byte)) = .ok (j, tail) :=
      hdec.symm.trans hround
    cases heq
    rfl

/-- The latch step turns `ime` on and clears the latch where it stood before the fetch and the rule left
it (R423). -/
theorem latchStep_true {u : State} (h : u.imePending = true) :
    latchStep true u = { u with ime := true, imePending := false } := by
  rw [latchStep, h]; rfl

theorem latchStep_false (u : State) : latchStep false u = u := rfl

theorem latchStep_of_not_pending (p : Bool) {u : State} (h : u.imePending = false) : latchStep p u = u := by
  rw [latchStep, h, Bool.and_false]; rfl

theorem TimingEffect.ime {s t : State} (h : TimingEffect s t) : t.ime = s.ime := by rw [h.rest]

theorem TimingEffect.imePending {s t : State} (h : TimingEffect s t) : t.imePending = s.imePending := by
  rw [h.rest]

/-- Settles O44: of the instructions only `DI`, `EI` and `RETI` write the two bits (O39), each is the only
one at its opcode byte, and after the rule only the latch step writes them. -/
theorem enableAfterNextInstruction : Obligations.EnableAfterNextInstruction := by
  unfold Obligations.EnableAfterNextInstruction
  intro s t hs ht hfault
  obtain ⟨i, pc, tail, rest, u, hwf, hdec, hexec, rfl⟩ := step_completed hs ht hfault
  have hdi : i = .di ↔ s.peek s.pc = 0xF3 := eq_iff_of_encode_singleton hdec rfl rfl
  have hei : i = .ei ↔ s.peek s.pc = 0xFB := eq_iff_of_encode_singleton hdec rfl rfl
  have hreti : i = .reti ↔ s.peek s.pc = 0xD9 := eq_iff_of_encode_singleton hdec rfl rfl
  have hne : i ≠ .prefixCb := by rintro rfl; cases hwf
  have hrule := exec_controlEffect i _ hne u hexec
  have hafterDi : i = .di → u.ime = false ∧ u.imePending = false := by
    rintro rfl; cases hexec; exact ⟨rfl, rfl⟩
  have hafterEi : i = .ei → u.imePending = true := by
    rintro rfl; cases hexec; rfl
  have hppu := ppuStep_timingEffect u.cost (latchStep s.imePending u)
  rw [hppu.ime, hppu.imePending]
  refine ⟨fun hp hnotDi => ?_, fun hp hnotEi => ?_, fun hp hnotReti hime => ?_, fun hop => ?_⟩
  · have hu : u.imePending = true := by
      by_cases h : i = .ei
      · exact hafterEi h
      · exact (hrule.imePending (mt hdi.1 hnotDi) h).trans hp
    rw [hp, latchStep_true hu]
    exact ⟨rfl, rfl⟩
  · rw [hp, latchStep_false]
    by_cases h : i = .di
    · exact (hafterDi h).2
    · exact (hrule.imePending h (mt hei.1 hnotEi)).trans hp
  · rw [hp, latchStep_false] at hime
    have h : i ≠ .di := fun h => by rw [(hafterDi h).1] at hime; cases hime
    exact (hrule.ime h (mt hreti.1 hnotReti)).symm.trans hime
  · obtain ⟨hime, hpending⟩ := hafterDi (hdi.2 hop)
    rw [latchStep_of_not_pending _ hpending]
    exact ⟨hime, hpending⟩

end Sys2Proof.Machine
end

section
/-! PROOFS. The timing unit in closed form (R437 to R443): what the end of one line adds to the trace and to
IF, and the counters after any number of lines and of calls. -/

namespace Sys2Proof.Machine

open Sys2Proof.Claims

/-! ## The parts of a line's end -/

section

variable (s : State)

@[simp] theorem renderPhases_ly : (renderPhases s).ly = s.ly := by unfold renderPhases; split <;> rfl

@[simp] theorem renderPhases_mem : (renderPhases s).mem = s.mem := by unfold renderPhases; split <;> rfl

@[simp] theorem renderPhases_cfg : (renderPhases s).cfg = s.cfg := (renderPhases_timingEffect s).cfg

@[simp] theorem renderPhases_events : (renderPhases s).events =
    s.events ++ (if s.ly ≤ 143 then [Event.objectSearch s.ly, .pixelTransfer s.ly] else []) := by
  unfold renderPhases; split <;> simp

@[simp] theorem requestVBlank_ly : (requestVBlank s).ly = s.ly := by unfold requestVBlank; split <;> rfl

@[simp] theorem requestVBlank_events : (requestVBlank s).events = s.events := by
  unfold requestVBlank; split <;> rfl

/-- R432. -/
theorem requestVBlank_peek_ifAddr : (requestVBlank s).peek ifAddr =
    if s.cfg.intDispatch = true ∧ s.ly = 144 then s.peek ifAddr ||| 1 else s.peek ifAddr := by
  simp only [requestVBlank, Bool.and_eq_true, beq_iff_eq]
  split
  · exact peek_poke_same _ _ _
  · rfl

@[simp] theorem wrapFrame_events : (wrapFrame s).events =
    s.events ++ (if s.ly = 154 then [Event.endOfFrame] else []) := by
  unfold wrapFrame; split <;> simp

@[simp] theorem wrapFrame_mem : (wrapFrame s).mem = s.mem := by unfold wrapFrame; split <;> rfl

@[simp] theorem publishLy_ly : (publishLy s).ly = s.ly := rfl

@[simp] theorem publishLy_events :
    (publishLy s).events = s.events ++ [Event.publish (BitVec.ofNat 8 s.ly)] := rfl

theorem publishLy_peek_other {a : Word} (h : a ≠ lyAddr s.cfg) : (publishLy s).peek a = s.peek a :=
  peek_poke_other _ _ _ _ h

/-! ## One line -/

/-- A line's end up to its last part, the publish (R438). -/
def lineEnd : State := wrapFrame (requestVBlank { renderPhases s with ly := (renderPhases s).ly + 1 })

theorem advanceLine_eq : advanceLine s = publishLy (lineEnd s) := rfl

theorem lineEnd_cfg : (lineEnd s).cfg = s.cfg :=
  ((wrapFrame_timingEffect _).cfg.trans (requestVBlank_timingEffect _).cfg).trans (renderPhases_cfg s)

theorem lineEnd_events : (lineEnd s).events = s.events ++
    (if s.ly ≤ 143 then [Event.objectSearch s.ly, .pixelTransfer s.ly] else []) ++
    (if s.ly = 153 then [Event.endOfFrame] else []) := by
  simp only [lineEnd, wrapFrame_events, requestVBlank_events, requestVBlank_ly, renderPhases_events,
    renderPhases_ly, Nat.reduceEqDiff]

/-- Only the advance to line 144 changes IF (R432). -/
theorem lineEnd_peek_ifAddr : (lineEnd s).peek ifAddr =
    if s.cfg.intDispatch = true ∧ s.ly = 143 then s.peek ifAddr ||| 1 else s.peek ifAddr := by
  have hrender : ({ renderPhases s with ly := (renderPhases s).ly + 1 } : State).peek ifAddr =
    s.peek ifAddr := peek_congr s _ (renderPhases_mem s) ifAddr
  rw [lineEnd, peek_congr _ _ (wrapFrame_mem _), requestVBlank_peek_ifAddr, hrender]
  simp only [renderPhases_cfg, renderPhases_ly, Nat.reduceEqDiff]

/-- A line's end adds the phases of a rendering line, the end of the frame, and the publish (R438, R440). -/
theorem advanceLine_events : (advanceLine s).events = s.events ++
    (if s.ly ≤ 143 then [Event.objectSearch s.ly, .pixelTransfer s.ly] else []) ++
    (if s.ly = 153 then [Event.endOfFrame] else []) ++ [Event.publish (BitVec.ofNat 8 (advanceLine s).ly)] := by
  rw [advanceLine_eq, publishLy_events, publishLy_ly, lineEnd_events]

/-- A line's end is an end of the frame after line 153 alone (R440). -/
theorem advanceLine_count_endOfFrame : (advanceLine s).events.count .endOfFrame =
    s.events.count .endOfFrame + if s.ly = 153 then 1 else 0 := by
  rw [advanceLine_events]
  split <;> split <;> simp

/-- The publish leaves IF where it goes elsewhere (R438). -/
theorem advanceLine_peek_ifAddr (h : ifAddr ≠ lyAddr s.cfg) : (advanceLine s).peek ifAddr =
    if s.cfg.intDispatch = true ∧ s.ly = 143 then s.peek ifAddr ||| 1 else s.peek ifAddr := by
  rw [advanceLine_eq, publishLy_peek_other _ (lineEnd_cfg s ▸ h), lineEnd_peek_ifAddr]

end

theorem TimingEffect.fault {s t : State} (h : TimingEffect s t) : t.fault = s.fault := by rw [h.rest]

/-- Settles O49: the parts of a line's end one after the other. -/
theorem scanlineAdvance : Obligations.ScanlineAdvance := by
  unfold Obligations.ScanlineAdvance
  intro s hl
  have heffect := advanceLine_timingEffect s
  have hly : (advanceLine s).ly = (s.ly + 1) % 154 := by rw [advanceLine_ly]; split <;> omega
  have hpub : (advanceLine s).peek (lyAddr s.cfg) = BitVec.ofNat 8 (advanceLine s).ly :=
    heffect.cfg ▸ advanceLine_published s
  exact ⟨hly, advanceLine_dots s, heffect.fault, hly ▸ hpub, hly ▸ advanceLine_events s,
    advanceLine_peek_ifAddr s⟩

/-! ## Any number of lines -/

/-- A round for every line leaves the dots of the line begun (R437). -/
theorem drainDots_dots (n : Nat) (s : State) (h : s.dots / 456 = n) :
    (drainDots n s).dots = s.dots % 456 := by
  induction n generalizing s with
  | zero =>
    show s.dots = s.dots % 456
    omega
  | succ n ih =>
    rw [drainDots, if_pos (by omega), ih, advanceLine_dots]
    · show (s.dots - 456) % 456 = s.dots % 456
      omega
    · rw [advanceLine_dots]
      show (s.dots - 456) / 456 = n
      omega

/-- After `n` lines the counter has gone on by `n`, and every return to 0 was the end of a frame (R440). -/
theorem drainDots_lines (n : Nat) (s : State) (hd : s.dots / 456 = n) (hl : s.ly ≤ 153) :
    (drainDots n s).ly = (s.ly + n) % 154 ∧ (drainDots n s).events.count .endOfFrame =
      s.events.count .endOfFrame + (s.ly + n) / 154 := by
  induction n generalizing s with
  | zero =>
    have hlt : s.ly < 154 := by omega
    exact ⟨(Nat.mod_eq_of_lt hlt).symm, by rw [Nat.add_zero, Nat.div_eq_of_lt hlt]; rfl⟩
  | succ n ih =>
    have hly := advanceLine_ly { s with dots := s.dots - 456 }
    have hcount := advanceLine_count_endOfFrame { s with dots := s.dots - 456 }
    have hdots : (advanceLine { s with dots := s.dots - 456 }).dots / 456 = n := by
      rw [advanceLine_dots]
      show (s.dots - 456) / 456 = n
      omega
    simp only at hly hcount
    rw [drainDots, if_pos (by omega)]
    obtain ⟨h1, h2⟩ := ih _ hdots (by rw [hly]; split <;> omega)
    rw [h1, h2, hly, hcount]
    split <;> split <;> omega

/-! ## Calls -/

/-- A call leaves the dots of the line begun (R437). -/
theorem ppuStep_dots (c : Nat) (s : State) : (ppuStep c s).dots = (s.dots + 4 * c) % 456 :=
  drainDots_dots _ { s with dots := s.dots + 4 * c } rfl

theorem ppuStep_lines (c : Nat) {s : State} (hl : s.ly ≤ 153) :
    (ppuStep c s).ly = (s.ly + (s.dots + 4 * c) / 456) % 154 ∧
    (ppuStep c s).events.count .endOfFrame =
      s.events.count .endOfFrame + (s.ly + (s.dots + 4 * c) / 456) / 154 :=
  drainDots_lines _ { s with dots := s.dots + 4 * c } rfl hl

/-- Calls add up: dots and lines depend on the sum of their costs alone (R443). -/
theorem foldl_ppuStep (cs : List Nat) (s : State) (hd : s.dots < 456) (hl : s.ly ≤ 153) :
    (cs.foldl (fun s c => ppuStep c s) s).dots = (s.dots + 4 * cs.sum) % 456 ∧
    (cs.foldl (fun s c => ppuStep c s) s).ly = (s.ly + (s.dots + 4 * cs.sum) / 456) % 154 := by
  induction cs generalizing s with
  | nil =>
    simp only [List.foldl_nil, List.sum_nil]
    omega
  | cons c cs ih =>
    have hdots := ppuStep_dots c s
    obtain ⟨hly, -⟩ := ppuStep_lines c hl
    obtain ⟨h1, h2⟩ := ih (ppuStep c s) (by omega) (by omega)
    rw [List.foldl_cons, List.sum_cons, h1, h2, hdots, hly]
    omega

/-- Settles O48: by induction on the lines of a call, and on the calls. -/
theorem timingUnitClosedForm : Obligations.TimingUnitClosedForm := by
  unfold Obligations.TimingUnitClosedForm
  refine ⟨fun s c hl => ⟨ppuStep_dots c s, ppuStep_lines c hl⟩, fun s cs hd hl => ?_⟩
  obtain ⟨h1, h2⟩ := foldl_ppuStep cs s (by omega) (by omega)
  rw [h1, h2, hd, hl]
  simp only [Nat.zero_add, and_self]

end Sys2Proof.Machine
end

section
/-! PROOFS. Where no instruction runs: a latched condition, a halted core, and the end of a run (R433, R446,
R447). -/

namespace Sys2Proof.Machine

open Sys2Proof.Claims

/-! ## A latched condition -/

theorem step_of_fault {s : State} {f : Fault} (h : s.fault = some f) : step s = .fault f := by
  simp only [step, h]

theorem ended_of_fault {s : State} {f : Fault} (h : s.fault = some f) : s.ended = true := by
  simp [State.ended, h]

/-- A run that has ended where it starts has that end and no other (R447). -/
theorem runEnds_of_ended {s : State} (h : s.ended = true) : RunEnds s s := ⟨0, runToEnd_of_ended 0 s h⟩

/-- Settles O42: the step looks at the latch first, and a state with a condition latched has ended. -/
theorem faultStopsTheMachine : Obligations.FaultStopsTheMachine := by
  unfold Obligations.FaultStopsTheMachine
  intro s f hf
  have hend : RunEnds s s := runEnds_of_ended (ended_of_fault hf)
  exact ⟨step_of_fault hf, ⟨hend, by simp [hf]⟩, fun e he => runEnds_unique s e s he hend⟩

/-! ## A halted core -/

/-- A halted core that no interrupt wakes makes the idle call (R433). -/
theorem step_of_halted {s : State} (hfault : s.fault = none) (hhalted : s.halted = true)
    (hidle : s.cfg.intDispatch = false ∨ s.pendingEnabled = 0) : step s = .next (idleStep s) := by
  simp only [step_of_no_fault s hfault, interruptCheck_idle s hidle, hhalted, if_true]

/-- `t` differs from `s` in the timing unit, its byte, the trace and the cost alone, without
`INT_DISPATCH`. -/
structure IdleEffect (s t : State) : Prop where
  rest : t = { s with dots := t.dots, ly := t.ly, mem := t.mem, events := t.events, cost := t.cost }
  peek : ∀ a, a ≠ lyAddr s.cfg → t.peek a = s.peek a

theorem IdleEffect.refl (s : State) : IdleEffect s s := ⟨rfl, fun _ _ => rfl⟩

theorem IdleEffect.cfg {s t : State} (h : IdleEffect s t) : t.cfg = s.cfg := by rw [h.rest]

theorem IdleEffect.trans {s t u : State} (h : IdleEffect s t) (h' : IdleEffect t u) : IdleEffect s u where
  rest := h'.rest.trans (by rw [h.rest])
  peek a ha := (h'.peek a (h.cfg ▸ ha)).trans (h.peek a ha)

/-- The idle call is the timing unit's step of the state with the cost of one idle call (R433, R437). -/
theorem idleStep_timingEffect (s : State) :
    TimingEffect { s with cost := cyclesOf s.cfg .haltIdle } (idleStep s) := ppuStep_timingEffect _ _

theorem idleStep_idleEffect {s : State} (hd : s.cfg.intDispatch = false) : IdleEffect s (idleStep s) where
  rest := by rw [(idleStep_timingEffect s).rest]
  peek a ha := (idleStep_timingEffect s).peek a ha fun h => absurd h (ne_true_of_eq_false hd)

/-- However many steps follow, a halted core without `INT_DISPATCH` only idles. -/
theorem run_of_halted (k : Nat) {s : State} (hfault : s.fault = none) (hhalted : s.halted = true)
    (hd : s.cfg.intDispatch = false) : ∃ t, core.run k s = .next t ∧ IdleEffect s t := by
  induction k generalizing s with
  | zero => exact ⟨s, rfl, .refl s⟩
  | succ k ih =>
    have hidle := idleStep_idleEffect hd
    obtain ⟨t, ht, hrest⟩ := ih (s := idleStep s) (by rw [hidle.rest]; exact hfault)
      (by rw [hidle.rest]; exact hhalted) (hidle.cfg ▸ hd)
    have hrun : core.run (k + 1) s = core.run k (idleStep s) := by
      have hstep : core.step s = .next (idleStep s) := step_of_halted hfault hhalted (.inl hd)
      simp only [Host.Core.run, hstep]
    exact ⟨t, hrun.trans ht, hidle.trans hrest⟩

/-- A run changes no parameter (R39). -/
theorem runEnds_cfg {s e : State} (h : RunEnds s e) : e.cfg = s.cfg := by
  obtain ⟨n, hn⟩ := h
  exact runToEnd_induct (fun t => t.cfg = s.cfg)
    (fun t u ht hu => (romNeverChanges t u hu).1.trans ht) n s e rfl hn

/-- Settles O43: the idle call by the frame and the closed form of the timing unit, and by induction the
steps behind the end of a run, which is halted. -/
theorem haltedStepOnlyMovesTheTimingUnit : Obligations.HaltedStepOnlyMovesTheTimingUnit := by
  unfold Obligations.HaltedStepOnlyMovesTheTimingUnit
  refine ⟨fun s hfault hhalted hidle => ?_, fun s e k hd he => ?_⟩
  · intro c t
    have heffect : TimingEffect { s with cost := c } t := idleStep_timingEffect s
    refine ⟨step_of_halted hfault hhalted hidle, heffect.rest, ppuStep_dots c _, fun hline => ?_,
      heffect.peek⟩
    have ht : t = { s with cost := c, dots := s.dots + 4 * c } := ppuStep_within_line c _ hline
    rw [ht]
    exact ⟨rfl, rfl, rfl⟩
  · have hhalted := runCompletes_halted s e he
    obtain ⟨hend, hfault⟩ := he
    have hcfg := runEnds_cfg hend
    obtain ⟨t, ht, heffect⟩ := run_of_halted k hfault hhalted (hcfg ▸ hd)
    exact ⟨hhalted, t, ht, heffect.rest, hcfg ▸ heffect.peek⟩

end Sys2Proof.Machine
end

section
/-! PROOFS. Interrupt entry (R428 to R431): which source the check finds, what an acknowledged request
leaves in storage, and the step for each way in which the two stack writes go. -/

namespace Sys2Proof.Machine

open Sys2Proof.Claims

/-! ## The source that is taken -/

/-- `i` is the lowest source pending and enabled (R428, R429). -/
structure LowestPending (s : State) (i : Nat) : Prop where
  lt : i < 5
  enabled : (s.peek ieAddr).getLsbD i = true
  pending : (s.peek ifAddr).getLsbD i = true
  lowest : ∀ j < i, ((s.peek ieAddr).getLsbD j && (s.peek ifAddr).getLsbD j) = false

/-- What the interrupt check leaves decides the step (R446). -/
theorem step_eq_of_interruptCheck_eq {s t : State} (hs : s.fault = none) (ht : t.fault = none)
    (h : interruptCheck s = interruptCheck t) : step s = step t := by
  rw [step_of_no_fault s hs, step_of_no_fault t ht, h]

section

variable {s : State} {i : Nat} (h : LowestPending s i)

include h

theorem LowestPending.getLsbD : s.pendingEnabled.getLsbD i = true := by
  rw [pendingEnabled_getLsbD s i h.lt, h.enabled, h.pending]; rfl

theorem LowestPending.pendingEnabled_ne_zero : s.pendingEnabled ≠ 0 := by
  intro h0
  have hbit := h.getLsbD
  rw [h0] at hbit
  simp at hbit

theorem LowestPending.lowestSource_eq : lowestSource s.pendingEnabled = i :=
  Machine.lowestSource_eq _ i h.lt h.getLsbD fun j hj =>
    (pendingEnabled_getLsbD s j (hj.trans h.lt)).trans (h.lowest j hj)

/-! ## The step -/

/-- Without `ime` the source ends the halted state, and the step goes on as if it had never been (R431). -/
theorem LowestPending.step_wake (hfault : s.fault = none) (hd : s.cfg.intDispatch = true)
    (hime : s.ime = false) : step s = step { s with halted := false } := by
  refine step_eq_of_interruptCheck_eq (t := { s with halted := false }) hfault hfault ?_
  rw [interruptCheck_wake s hd h.pendingEnabled_ne_zero hime,
    interruptCheck_not_taken { s with halted := false } rfl (.inr (.inr hime))]

/-- With `ime` the step is the entry, and no instruction runs (R430). -/
theorem LowestPending.step_take (hfault : s.fault = none) (hd : s.cfg.intDispatch = true)
    (hime : s.ime = true) : step s = (enterInterrupt i { s with halted := false }).run
      fun _ t => .next (ppuStep t.cost t) := by
  rw [step_of_no_fault s hfault, interruptCheck_take s hd h.pendingEnabled_ne_zero hime,
    h.lowestSource_eq]
  cases enterInterrupt i { s with halted := false } <;> rfl

end

/-! ## Storage after the acknowledgement -/

theorem acknowledge_requestCleared (s : State) (i : Nat) : RequestCleared i s (s.acknowledge i) := by
  intro k hk
  rw [acknowledge_peek, if_pos rfl, getLsbD_clear _ _ _ hk]

theorem acknowledge_peek_other (s : State) (i : Nat) {a : Word} (ha : a ≠ ifAddr) :
    (s.acknowledge i).peek a = s.peek a := by
  rw [acknowledge_peek, if_neg ha]

/-- A store elsewhere leaves the request cleared. -/
theorem requestCleared_poke {i : Nat} {s t : State} (h : RequestCleared i s t) {a : Word}
    (ha : ifAddr ≠ a) (v : Byte) : RequestCleared i s (t.poke a v) := by
  intro k hk
  rw [peek_poke_other _ _ _ _ ha]
  exact h k hk

/-- The byte behind IF is writable, so a push refused there at its second write did not start at IF. -/
theorem ifAddr_ne_of_second_refused {sp : Word} (h : writable (sp - 2) = false) : ifAddr ≠ sp - 1 := by
  intro he
  have hsp : sp - 2 = ifAddr - 1 := by rw [he]; bv_omega
  rw [hsp] at h
  exact absurd h (by decide)

/-! ## The entry -/

section

variable (i : Nat) (s : State)

/-- An entry acknowledges the request, pushes PC, and goes to the handler (R430). -/
theorem enterInterrupt_eq : enterInterrupt i s = (push16 s.pc (s.acknowledge i)).bind fun _ t =>
    .ok () { t with pc := 0x0040 + BitVec.ofNat 16 (8 * i), cost := cyclesOf t.cfg .interruptEntry } := rfl

/-- The state at the handler, both stack writes being allowed. -/
def State.atHandler : State :=
  { s with
    ime := false, sp := s.sp - 2, pc := BitVec.ofNat 16 (0x40 + 8 * i),
    mem := (((s.acknowledge i).poke (s.sp - 1) (hiByte s.pc)).poke (s.sp - 2) (loByte s.pc)).mem,
    cost := cyclesOf s.cfg .interruptEntry }

theorem enterInterrupt_ok (h1 : writable (s.sp - 1) = true) (h2 : writable (s.sp - 2) = true) :
    enterInterrupt i s = .ok () (s.atHandler i) := by
  rw [enterInterrupt_eq, push16_ok _ (s.acknowledge i) h1 h2]
  simp [State.atHandler, BitVec.ofNat_add]

theorem enterInterrupt_raised_first (h1 : writable (s.sp - 1) = false) :
    enterInterrupt i s = .raised { s with
      ime := false, sp := s.sp - 1, mem := (s.acknowledge i).mem,
      fault := some (.illegalMemoryAccess (s.sp - 1) .write) } := by
  rw [enterInterrupt_eq, push16_raised_first _ (s.acknowledge i) h1]
  simp [State.raise]

theorem enterInterrupt_raised_second (h1 : writable (s.sp - 1) = true)
    (h2 : writable (s.sp - 2) = false) : enterInterrupt i s = .raised { s with
      ime := false, sp := s.sp - 2, mem := ((s.acknowledge i).poke (s.sp - 1) (hiByte s.pc)).mem,
      fault := some (.illegalMemoryAccess (s.sp - 2) .write) } := by
  rw [enterInterrupt_eq, push16_raised_second _ (s.acknowledge i) h1 h2]
  simp [State.raise]

end

/-- Settles O51: with `ime` the step is `enterInterrupt`, in the three ways that its stack writes go; what
it leaves in storage is the acknowledgement and the bytes pushed over it. -/
theorem interruptEntry : Obligations.InterruptEntry := by
  unfold Obligations.InterruptEntry
  intro s i hfault hd hi hie hif hlow
  have h : LowestPending s i := ⟨hi, hie, hif, hlow⟩
  have hcleared : RequestCleared i s (s.acknowledge i) := acknowledge_requestCleared s i
  have hother (a : Word) (ha : a ≠ ifAddr) : (s.acknowledge i).peek a = s.peek a :=
    acknowledge_peek_other s i ha
  refine ⟨h.step_wake hfault hd, fun hime h1 h2 => ?_, fun hime h1 => ?_, fun hime h1 h2 => ?_⟩
  all_goals rw [h.step_take hfault hd hime]
  · rw [enterInterrupt_ok i { s with halted := false } h1 h2]
    have hne : s.sp - 1 ≠ s.sp - 2 := by bv_omega
    refine ⟨State.atHandler i { s with halted := false }, rfl, rfl, ?_, ?_, fun a ha1 ha2 ha => ?_,
      fun hif1 hif2 => ?_⟩
    · exact (peek_poke_other _ _ _ _ hne).trans (peek_poke_same _ _ _)
    · exact peek_poke_same _ _ _
    · exact (peek_poke_other _ _ _ _ ha2).trans ((peek_poke_other _ _ _ _ ha1).trans (hother a ha))
    · exact requestCleared_poke (requestCleared_poke hcleared hif1 (hiByte s.pc)) hif2 (loByte s.pc)
  · rw [enterInterrupt_raised_first i { s with halted := false } h1]
    exact ⟨_, rfl, rfl, hother, hcleared⟩
  · rw [enterInterrupt_raised_second i { s with halted := false } h1 h2]
    refine ⟨_, rfl, rfl, ?_, fun a ha1 ha => ?_, ?_⟩
    · exact peek_poke_same _ _ _
    · exact (peek_poke_other _ _ _ _ ha1).trans (hother a ha)
    · exact requestCleared_poke hcleared (ifAddr_ne_of_second_refused h2) (hiByte s.pc)

end Sys2Proof.Machine
end

section
/-! PROOFS. Costs (R482 to R484): an instruction that raises nothing ends by charging a row of the cycle
table, and the default table has R483's entries. -/

namespace Sys2Proof.Machine

open Sys2Proof.Claims

/-! ## The default table -/

theorem cyclesOf_of_default {cfg : Config} (h : cfg.cycles = []) (key : CycleKey) :
    cyclesOf cfg key = defaultCycles key := by rw [cyclesOf, h]; rfl

/-- Every row of the default table but the two that R483 lists without a cost costs 1 to 6. -/
theorem defaultCycles_row_bounds {row : Row} (hrow : row ∉ [.stop, .prefixCb]) (k : CostCase) :
    1 ≤ defaultCycles (.row row k) ∧ defaultCycles (.row row k) ≤ 6 := by
  cases row
  case stop | prefixCb => exact absurd (by decide) hrow
  all_goals cases k <;> decide

theorem defaultCycles_of_mem_listedCosts : ∀ entry ∈ listedCosts, defaultCycles entry.1 = entry.2 := by
  decide

/-! ## A piece that raises has latched a condition -/

/-- If a piece of an instruction ended it, a condition is latched (R412). -/
def Res.RaisesFault {α : Type} (x : Res α) : Prop :=
  match x with
  | .ok _ _ => True
  | .raised s => s.fault ≠ none

theorem Res.RaisesFault.bind {α β : Type} {x : Res α} {k : α → State → Res β} (hx : x.RaisesFault)
    (hk : ∀ v s, (k v s).RaisesFault) : (x.bind k).RaisesFault := by
  cases x with
  | ok v s => exact hk v s
  | raised s => exact hx

theorem busRead_raisesFault (a : Word) (s : State) : (busRead a s).RaisesFault := by
  rcases busRead_cases a s with ⟨_, e⟩ | ⟨_, e⟩ <;> rw [e]
  · trivial
  · exact nofun

theorem busWrite_raisesFault (a : Word) (v : Byte) (s : State) : (busWrite a v s).RaisesFault := by
  rcases busWrite_cases a v s with ⟨_, e⟩ | ⟨_, e⟩ <;> rw [e]
  · trivial
  · exact nofun

theorem busWrite2_raisesFault (a v : Word) (s : State) : (busWrite2 a v s).RaisesFault :=
  (busWrite_raisesFault a _ s).bind fun _ _ => busWrite_raisesFault _ _ _

theorem fetch8_raisesFault (s : State) : (fetch8 s).RaisesFault :=
  (busRead_raisesFault s.pc s).bind fun _ _ => trivial

theorem readR8_raisesFault (r : R8) (s : State) : (readR8 r s).RaisesFault := by
  rcases readR8_cases r s with e | ⟨_, _, e⟩ <;> rw [e]
  · trivial
  · exact nofun

theorem writeR8_raisesFault (r : R8) (v : Byte) (s : State) : (writeR8 r v s).RaisesFault := by
  rcases writeR8_cases r v s with e | ⟨_, _, e⟩ <;> rw [e]
  · trivial
  · exact nofun

theorem push16_raisesFault (v : Word) (s : State) : (push16 v s).RaisesFault :=
  (busWrite_raisesFault _ _ _).bind fun _ _ => busWrite_raisesFault _ _ _

theorem pop16_raisesFault (s : State) : (pop16 s).RaisesFault :=
  (busRead_raisesFault _ _).bind fun _ _ => (busRead_raisesFault _ _).bind fun _ _ => trivial

theorem callTo_raisesFault (target : Word) (s : State) : (callTo target s).RaisesFault :=
  (push16_raisesFault s.pc s).bind fun _ _ => trivial

theorem returnTo_raisesFault (s : State) : (returnTo s).RaisesFault :=
  (pop16_raisesFault s).bind fun _ _ => trivial

theorem returnFromInterrupt_raisesFault (s : State) : (returnFromInterrupt s).RaisesFault :=
  (pop16_raisesFault s).bind fun _ _ => trivial

/-! ## An instruction that completes has charged a row -/

/-- If no condition is latched, the cost is the cycle table's for a row that R483 lists with a cost. -/
def ChargedUnlessFault (t : State) : Prop :=
  t.fault = none → ∃ row k, row ∉ [Row.stop, .prefixCb] ∧ t.cost = cyclesOf t.cfg (.row row k)

theorem nextIn_charge (s : State) (row : Row) (k : CostCase)
    (hrow : row ∉ [.stop, .prefixCb] := by decide) :
    NextIn ChargedUnlessFault (.next (s.charge row k)) :=
  .next fun _ => ⟨row, k, hrow, rfl⟩

theorem nextIn_raise (s : State) (x : Fault) : NextIn ChargedUnlessFault (.next (s.raise x)) :=
  .next nofun

/-- A piece that raised leaves a latched condition; else the rest of the instruction decides. -/
theorem Res.RaisesFault.run {α : Type} {x : Res α} {k : α → State → Out} (hx : x.RaisesFault)
    (hk : ∀ v s, NextIn ChargedUnlessFault (k v s)) : NextIn ChargedUnlessFault (x.run k) := by
  cases x with
  | ok v s => exact hk v s
  | raised s => exact .next fun h => absurd h hx

/-- An instruction's rule raises or ends with the charge of a row. -/
theorem exec_charged_of_ne_prefixCb (i : Instr) (s : State) (hi : i ≠ .prefixCb) :
    NextIn ChargedUnlessFault (exec i s) := by
  cases i with
  | prefixCb => exact absurd rfl hi
  | stop n => exact nextIn_raise s _
  | nop | rlca | rrca | rla | rra | daa | cpl | scf | ccf | addAN8 n | adcAN8 n | subAN8 n | sbcAN8 n
  | andAN8 n | xorAN8 n | orAN8 n | cpAN8 n | addHlR16 r | addSpE8 e | ldHlSpE8 e | ldSpHl | incR16 r
  | decR16 r | ldR16N16 r n | di | ei | halt | jpN16 n | jpHl | jr e =>
    exact nextIn_charge _ _ _
  | addAR8 r | adcAR8 r | subAR8 r | sbcAR8 r | andAR8 r | xorAR8 r | orAR8 r | cpAR8 r | bitU3R8 u r =>
    exact (readR8_raisesFault r s).run fun _ _ => nextIn_charge _ _ _
  | incR8 r | decR8 r | rlcR8 r | rrcR8 r | rlR8 r | rrR8 r | slaR8 r | sraR8 r | swapR8 r | srlR8 r
  | resU3R8 u r | setU3R8 u r =>
    exact (readR8_raisesFault r s).run fun _ t => (writeR8_raisesFault r _ t).run fun _ _ =>
      nextIn_charge _ _ _
  | ldR8R8 dst src =>
    exact (readR8_raisesFault src s).run fun v t => (writeR8_raisesFault dst v t).run fun _ _ =>
      nextIn_charge _ _ _
  | ldR8N8 r n => exact (writeR8_raisesFault r n s).run fun _ _ => nextIn_charge _ _ _
  | ldR16MemA r | ldN16A n | ldhN8A n | ldhCA =>
    exact (busWrite_raisesFault _ s.a s).run fun _ _ => nextIn_charge _ _ _
  | ldAR16Mem r | ldAN16 n | ldhAN8 n | ldhAC =>
    exact (busRead_raisesFault _ s).run fun _ _ => nextIn_charge _ _ _
  | ldN16Sp n => exact (busWrite2_raisesFault n s.sp s).run fun _ _ => nextIn_charge _ _ _
  | push r => exact (push16_raisesFault _ s).run fun _ _ => nextIn_charge _ _ _
  | pop r => exact (pop16_raisesFault s).run fun _ _ => nextIn_charge _ _ _
  | jpCcN16 cc n | jrCc cc e =>
    simp only [exec, execJpCcN16, execJrCc]
    split <;> exact nextIn_charge _ _ _
  | callN16 n | rst tgt => exact (callTo_raisesFault _ s).run fun _ _ => nextIn_charge _ _ _
  | callCcN16 cc n =>
    simp only [exec, execCallCcN16]
    split
    · exact (callTo_raisesFault n s).run fun _ _ => nextIn_charge _ _ _
    · exact nextIn_charge _ _ _
  | ret => exact (returnTo_raisesFault s).run fun _ _ => nextIn_charge _ _ _
  | reti => exact (returnFromInterrupt_raisesFault s).run fun _ _ => nextIn_charge _ _ _
  | retCc cc =>
    simp only [exec, execRetCc]
    split
    · exact (returnTo_raisesFault s).run fun _ _ => nextIn_charge _ _ _
    · exact nextIn_charge _ _ _

/-- The row of the byte 0xCB has no cost of its own: it takes that of the instruction it runs (R295). -/
theorem exec_charged (i : Instr) (s : State) : NextIn ChargedUnlessFault (exec i s) := by
  by_cases hi : i = .prefixCb
  · subst hi
    refine (fetch8_raisesFault s).run fun op2 t => ?_
    rcases runCb_cases op2 t with ⟨i, hi, e⟩ | e <;> rw [e]
    · exact exec_charged_of_ne_prefixCb i t hi
    · exact nextIn_raise t _
  · exact exec_charged_of_ne_prefixCb i s hi

/-- Settles O59: what `exec_charged` says was charged is an entry of the default table, since no
instruction writes the parameters; the listed costs are compared with the table one by one. -/
theorem defaultCosts : Obligations.DefaultCosts := by
  unfold Obligations.DefaultCosts
  refine ⟨fun i s t hcycles _ ht hfault => ?_, fun cfg key n hcycles hmem => ?_⟩
  · obtain ⟨row, k, hrow, hcost⟩ := exec_charged i s t ht hfault
    have hdefault : t.cfg.cycles = [] := by rw [(exec_coreEffect i s t ht).cfg, hcycles]
    rw [hcost, cyclesOf_of_default hdefault]
    exact defaultCycles_row_bounds hrow k
  · rw [cyclesOf_of_default hcycles]
    exact defaultCycles_of_mem_listedCosts (key, n) hmem

end Sys2Proof.Machine
end
